-- ==== Sys2Proof/Word.lean ====
section
/-! DEFINITION. The word types of the block, with the widths of 10_state.md rule R20 and 00_scope.md rule R9. -/

namespace Sys2Proof

/-- `bits8`: an instruction or a character (R9; BYTE_W of R8). -/
abbrev Byte := BitVec 8

/-- `bits4`: what the four data lines carry at once (R9; DATA_W of R8). Bit 3 is D7. -/
abbrev Nibble := BitVec 4

/-- `bits3`: a command code (R81, R90). -/
abbrev OpCode := BitVec 3

/-- The 11-bit command word of format CMD (R81). -/
abbrev CmdWord := BitVec 11

/-- A level (R9): `true` is 1 (high), `false` is 0 (low). -/
abbrev Level := Bool

/-- A duration in microseconds, always a lower bound (R7). -/
abbrev Micros := Nat

end Sys2Proof
end

