-- ==== Sys2Proof/Config.lean ====
section
/-! DEFINITION. The parameters of 00_scope.md rule R8 that have a value, and the free values of the model.
POLL_LIMIT is open and is a field of State (log entry 5); TICK and PINMAP are read by no rule (log entry 11). -/

namespace Sys2Proof

/-- T_EH: minimum time E stays high in every strobe (R8, R270). -/
def Config.tEH : Micros := 1
/-- T_EL: minimum time after E falls before the next micro-action (R8, R270). -/
def Config.tEL : Micros := 1
/-- T_PWRON: minimum power-on delay at the start of INIT (R8, R191). -/
def Config.tPwrOn : Micros := 40000
/-- T_RST1: minimum wait after the first function-reset nibble (R8, R192; 90_conflicts.md C2). -/
def Config.tRst1 : Micros := 10
/-- T_RST2: minimum wait after the second function-reset nibble (R8, R192; 90_conflicts.md C2). -/
def Config.tRst2 : Micros := 200
/-- T_RST3: minimum wait after the third function-reset nibble (R8, R192; 90_conflicts.md C2). -/
def Config.tRst3 : Micros := 80

/-- OP_FRST: function-reset byte (R8, R88). -/
def Config.opFrst : Byte := 0x30
/-- OP_FSET4: function-set-4bit byte (R8, R88). -/
def Config.opFset4 : Byte := 0x28
/-- OP_DOFF: display-off byte (R8, R88). -/
def Config.opDoff : Byte := 0x08
/-- OP_CLR: clear byte (R8, R88). -/
def Config.opClr : Byte := 0x01
/-- OP_HOME: home byte, named and sent by no command of its own (R8, R88). -/
def Config.opHome : Byte := 0x02
/-- OP_EMODE: entry-mode byte (R8, R88). -/
def Config.opEmode : Byte := 0x06
/-- OP_DON: display-on byte (R8, R88). -/
def Config.opDon : Byte := 0x0C
/-- OP_SETCUR: set-cursor base byte (R8, R86). -/
def Config.opSetcur : Byte := 0x80
/-- ROW1_BASE (R8, R86). -/
def Config.row1Base : Byte := 0x00
/-- ROW2_BASE (R8, R86). -/
def Config.row2Base : Byte := 0x40

/-- FREE VALUE (log entry 2). The level the LCD agent puts on D7 at the `n`-th sample after the scripted
answers have run out: "any value", a free draw from 0 and 1 (R69; 93_implementation_defined.md U5). -/
opaque Config.d7Draw : Nat → Level

/-- The registers to which R40 gives no reset value (93_implementation_defined.md U8), as one record. -/
structure UnspecifiedAtReset where
  dOut : Nibble
  rs : Level
  bf : Level
  op : OpCode
  arg : Byte
  sel : Level
  byt : Byte
  nib : Byte
  ch : Byte
  sidx : Nat
  pollcnt : Nat
  deriving DecidableEq, Repr, Inhabited

/-- FREE VALUE (log entry 4). What the registers with no reset value hold after the `n`-th assertion of the
reset input: "its reset value is a draw" (R40; U8). -/
opaque Config.resetDraw : Nat → UnspecifiedAtReset

/-- FREE VALUE (log entry 6). The byte at an index of an open string stream past its listed bytes: the stream is
the host's, any function from index to byte (R51). The first argument names the stream. -/
opaque Config.streamByte : Nat → Nat → Byte

end Sys2Proof
end

