-- ==== Sys2Proof/Syntax.lean ====
section
/-! DEFINITION. The instructions: one constructor for each row of spec/opcode_table.json.
The eight rows of format CMD carry every bit of the command word's `arg`, ignored or not, because acceptance
latches all of it (40_gpio_line_ops.md rule R118). The nine rows of format LCDI are single bytes (R88). -/

namespace Sys2Proof

/-- What a string stream gives past its listed bytes (20_memory.md rule R51). -/
inductive StreamTail where
  /-- 0 at every further index: "a list with no explicit terminator is terminated at its end" (R51). -/
  | zeros
  /-- the byte `b` at every further index: with `b` not 0, a stream that need not have a zero byte (R51, R222). -/
  | repeats (b : Byte)
  /-- free values, one at each further index: the open stream named `id` (log entry 6). -/
  | free (id : Nat)
  deriving DecidableEq, Repr

/-- The string that accompanies a WRS command (R51, R81): listed bytes from index 0, then the tail. -/
structure StringArg where
  bytes : List Byte
  tail : StreamTail
  deriving DecidableEq, Repr

/-- The instructions. -/
inductive Instr where
  /-- INIT (R190); `arg` is ignored (R89). -/
  | init (arg : Byte)
  /-- WRI, write-instruction (R161). -/
  | wri (b : Byte)
  /-- WRC, write-character (R162). -/
  | wrc (b : Byte)
  /-- WRS, write-string (R163); `arg` is ignored, the string accompanies the word (R51). -/
  | wrs (arg : Byte) (str : StringArg)
  /-- SETCUR, set-cursor (R164). -/
  | setcur (row : Byte)
  /-- POLL, poll-until-ready (R140); `arg` is ignored (R89). -/
  | poll (arg : Byte)
  /-- PWR, set the power-enable line (R115); bit 0 is the level, bits 7:1 are ignored (R89). -/
  | pwr (arg : Byte)
  /-- NOP, the reserved command code (R116, R91); `arg` is ignored. -/
  | nop (arg : Byte)
  /-- LCD instruction byte 0x01 (R88). -/
  | lcdClear
  /-- LCD instruction byte 0x02 (R88). -/
  | lcdHome
  /-- LCD instruction byte 0x06 (R88). -/
  | lcdEntryMode
  /-- LCD instruction byte 0x08 (R88). -/
  | lcdDisplayOff
  /-- LCD instruction byte 0x0C (R88). -/
  | lcdDisplayOn
  /-- LCD instruction byte 0x28 (R88). -/
  | lcdFunctionSet4bit
  /-- LCD instruction byte 0x30 (R88). -/
  | lcdFunctionReset
  /-- LCD instruction byte 0x80 (R86, R88). -/
  | lcdSetCursorRow1
  /-- LCD instruction byte 0xC0 (R86, R88). -/
  | lcdSetCursorRow2
  deriving DecidableEq, Repr

end Sys2Proof
end

