-- ==== Sys2Proof/WellFormed.lean ====
section
/-! DEFINITION. Well-formed instructions. No command word is illegal (30_encoding.md rule R91) and every field has
its exact width by type, so the one check is on how a string's tail is written. -/

namespace Sys2Proof

/-- A string argument is written in one way: a tail of zeros is `zeros`, never a repeated zero byte. -/
def StringArg.wellFormed (t : StringArg) : Bool :=
  decide (t.tail ≠ .repeats 0)

/-- Well-formedness of an instruction. -/
def Instr.wellFormed : Instr → Bool
  | .wrs _ t => t.wellFormed
  | .init _ => true
  | .wri _ => true
  | .wrc _ => true
  | .setcur _ => true
  | .poll _ => true
  | .pwr _ => true
  | .nop _ => true
  | .lcdClear => true
  | .lcdHome => true
  | .lcdEntryMode => true
  | .lcdDisplayOff => true
  | .lcdDisplayOn => true
  | .lcdFunctionSet4bit => true
  | .lcdFunctionReset => true
  | .lcdSetCursorRow1 => true
  | .lcdSetCursorRow2 => true

end Sys2Proof
end

