-- ==== Sys2Proof/Decode.lean ====
section
/-! DEFINITION. The decoder of the two opcode maps of 30_encoding.md, and after it the encoder.
The block itself decodes only format CMD, the command word (R80): `decodeCommand`, total, no word refused (R91).
Format LCDI is the table of bytes it sends: `decodeLcdByte` refuses, by name, a byte that is no row of the table. -/

namespace Sys2Proof

/-- Field `op` of a command word, bits 10:8 (R81). -/
def CmdWord.opField (w : CmdWord) : OpCode := w.extractLsb' 8 3

/-- Field `arg` of a command word, bits 7:0 (R81). -/
def CmdWord.argField (w : CmdWord) : Byte := w.extractLsb' 0 8

/-- The command word with fields `op` and `arg` (R81, R97). -/
def CmdWord.make (op : OpCode) (arg : Byte) : CmdWord := op ++ arg

/-- The string that accompanies a word written with operand words of zeros: the empty string. -/
def StringArg.empty : StringArg := ⟨[], .zeros⟩

/-- An encoded instruction: a command word with the string beside it (R81), or an LCD instruction byte (R88). -/
inductive Encoded where
  | cmd (word : CmdWord) (str : StringArg)
  | lcd (byte : Byte)
  deriving DecidableEq, Repr

/-- Why a decode is refused. -/
inductive DecodeError where
  /-- The byte is none of the nine of R88. -/
  | notAnLcdInstruction (b : Byte)
  /-- The table word has a bit above the format's 11 or 8 bits. -/
  | wordTooWide (w : Nat)
  deriving DecidableEq, Repr

/-- The command codes (R90): decode of a command word, total. Only WRS takes the string. -/
def decodeCommand (w : CmdWord) (str : StringArg) : Instr :=
  match w.opField.toNat with
  | 0 => .init w.argField
  | 1 => .wri w.argField
  | 2 => .wrc w.argField
  | 3 => .wrs w.argField str
  | 4 => .setcur w.argField
  | 5 => .poll w.argField
  | 6 => .pwr w.argField
  | _ => .nop w.argField

/-- The LCD instruction bytes (R88, R86). -/
def lcdByteTable : List (Byte × Instr) :=
  [(0x01, .lcdClear), (0x02, .lcdHome), (0x06, .lcdEntryMode), (0x08, .lcdDisplayOff),
   (0x0C, .lcdDisplayOn), (0x28, .lcdFunctionSet4bit), (0x30, .lcdFunctionReset),
   (0x80, .lcdSetCursorRow1), (0xC0, .lcdSetCursorRow2)]

/-- Look a byte up in a table of bytes. -/
def lookupByte (b : Byte) : List (Byte × Instr) → Option Instr
  | [] => none
  | (c, i) :: rest => if b = c then some i else lookupByte b rest

/-- Decode of an LCD instruction byte (R88). -/
def decodeLcdByte (b : Byte) : Except DecodeError Instr :=
  match lookupByte b lcdByteTable with
  | some i => .ok i
  | none => .error (.notAnLcdInstruction b)

/-- Decode, total, rejecting by name. -/
def decode : Encoded → Except DecodeError Instr
  | .cmd w str => .ok (decodeCommand w str)
  | .lcd b => decodeLcdByte b

/-- The encoding of an instruction (R90, R88): the command word with its string, or the LCD byte. -/
def encode : Instr → Encoded
  | .init a => .cmd (CmdWord.make 0 a) StringArg.empty
  | .wri b => .cmd (CmdWord.make 1 b) StringArg.empty
  | .wrc b => .cmd (CmdWord.make 2 b) StringArg.empty
  | .wrs a t => .cmd (CmdWord.make 3 a) t
  | .setcur n => .cmd (CmdWord.make 4 n) StringArg.empty
  | .poll a => .cmd (CmdWord.make 5 a) StringArg.empty
  | .pwr a => .cmd (CmdWord.make 6 a) StringArg.empty
  | .nop a => .cmd (CmdWord.make 7 a) StringArg.empty
  | .lcdClear => .lcd 0x01
  | .lcdHome => .lcd 0x02
  | .lcdEntryMode => .lcd 0x06
  | .lcdDisplayOff => .lcd 0x08
  | .lcdDisplayOn => .lcd 0x0C
  | .lcdFunctionSet4bit => .lcd 0x28
  | .lcdFunctionReset => .lcd 0x30
  | .lcdSetCursorRow1 => .lcd 0x80
  | .lcdSetCursorRow2 => .lcd 0xC0

/-- The bits of a table row as an encoded instruction: a row of at most 8 bits is of format LCDI, a wider one of
format CMD, its string empty (operand words of zeros). -/
def encodedOfTableWord (nbits w : Nat) : Except DecodeError Encoded :=
  if nbits ≤ 8 then
    if w < 256 then .ok (.lcd (BitVec.ofNat 8 w)) else .error (.wordTooWide w)
  else if w < 2048 then .ok (.cmd (BitVec.ofNat 11 w) StringArg.empty)
  else .error (.wordTooWide w)

/-- What the decoder reads from a word numbered as spec/opcode_table.json numbers its bits. -/
def decodeTableWord (nbits w : Nat) : Option Instr :=
  match encodedOfTableWord nbits w with
  | .error _ => none
  | .ok enc =>
    match decode enc with
    | .error _ => none
    | .ok i => some i

end Sys2Proof
end

