-- ==== Sys2Proof/Machine/State.lean ====
section
/-! DEFINITION. The state of the block (10_state.md), the string space, the two traces, the environment's inputs as
plain data, the reasons a step can stop, and the reset state (R40). -/

namespace Sys2Proof.Machine

/-- Labels of SN, send-nibble (R130). -/
inductive SnLabel where
  | n1 | n2 | n3 | n4 | n5
  deriving DecidableEq, Repr

/-- Labels of PL, poll-until-ready, with its fault exit (R131, R221). -/
inductive PlLabel where
  | p1 | p2 | p3 | p4 | p5 | p6 | p7 | p8 | p9 | p10 | p11 | p12 | p13 | p14 | p15
  | pf1 | pf2 | pf3
  deriving DecidableEq, Repr

/-- Labels of WB, the byte writer (R160). -/
inductive WbLabel where
  | w1 | w2 | w3 | w4 | w5
  deriving DecidableEq, Repr

/-- Labels of the WRS command (R163). -/
inductive WrsLabel where
  | s1 | s2 | s3 | s4 | s5
  deriving DecidableEq, Repr

/-- Labels of the INIT command (R190). -/
inductive InitLabel where
  | i0 | i1 | i2 | i3 | i4 | i5 | i6 | i7 | i8 | i9
  | i10 | i11 | i12 | i13 | i14 | i15 | i16 | i17 | i18 | i19
  deriving DecidableEq, Repr

/-- The labels of the procedure tables (R28). -/
inductive Label where
  | sn (l : SnLabel)
  | pl (l : PlLabel)
  | wb (l : WbLabel)
  /-- A1, WRI (R161) -/
  | a1
  /-- B1, WRC (R162) -/
  | b1
  | wrs (l : WrsLabel)
  /-- C1, SETCUR (R164) -/
  | c1
  /-- Q1, POLL (R140) -/
  | q1
  /-- V1, PWR (R115) -/
  | v1
  | init (l : InitLabel)
  deriving DecidableEq, Repr

/-- The lines that `SetLevel` drives (R112). -/
inductive Line where
  | e | rw | rs | pwr
  deriving DecidableEq, Repr

/-- A direction of D7 (R9, R111). -/
inductive Dir where
  | input | output
  deriving DecidableEq, Repr

/-- Bus events (R11). -/
inductive BusEvent where
  | data (n : Nibble)
  | lvl (line : Line) (v : Level)
  | dir (d : Dir)
  | sample (b : Level)
  | wait (t : Micros)
  deriving DecidableEq, Repr

/-- The one fault code of the block (R220). -/
inductive FaultCode where
  | controllerUnresponsive
  deriving DecidableEq, Repr

/-- Operation events (R12). -/
inductive OpEvent where
  | nibbleSend (p : Nibble)
  | instrWrite (b : Byte)
  | charWrite (b : Byte)
  | busyPoll (k : Nat)
  | delay (t : Micros)
  | fault (code : FaultCode) (k : Nat)
  deriving DecidableEq, Repr

/-- Bytes at indexes, in one canonical form: indexes strictly rising, no entry equal to what an unlisted index
reads as (`Memory.unlisted`); the form is `Memory.wf` in Machine/Ops.lean. -/
abbrev Memory := List Host.Cell

/-- The string space STR of the command in progress (R51): the bytes at indexes below `size` are those of `cells`,
those from `size` on are the tail's. -/
structure Str where
  cells : Memory
  size : Nat
  tail : StreamTail
  deriving DecidableEq, Repr

/-- A command on the port: the word and the string beside it (R81). -/
structure Offer where
  word : CmdWord
  str : StringArg
  deriving DecidableEq, Repr

/-- The host's input at one step (R117). -/
inductive HostInput where
  /-- no command, no reset -/
  | quiet
  /-- the reset input asserted; a command offered at the same step is not seen (R117 case 1) -/
  | reset
  /-- a command offered at this step and withdrawn after it, taken or not -/
  | offer (o : Offer)
  /-- a command offered at this step and at every later one until it is accepted: "the host must keep offering
  it" (R118) -/
  | keep (o : Offer)
  deriving DecidableEq, Repr

/-- Reasons a step stops with a fault: none. The one fault of the block, ControllerUnresponsive, is a next state with
the fault recorded (R117, R221), and every row is enabled in every state (R117). Nobody raises a member of this type. -/
inductive Fault where
  deriving DecidableEq, Repr

/-- Reasons a step refuses: "there is no refusal" (R117). -/
inductive Refusal where
  /-- An instruction without a meaning in the model, by the mnemonic of spec/opcode_table.json. Raised by an arm of
  `exec` only; no arm raises it today. Safe: the model stops where the hardware goes on. -/
  | notModelled (mnemonic : String)
  deriving DecidableEq, Repr

/-- The state of the block (R20), with the string bound to the command in progress, the two traces (R39), the
parameter POLL_LIMIT (R8), and the environment's inputs. -/
structure State where
  /-- output latch of D7..D4 (R21) -/
  dOut : Nibble
  /-- direction of D7: 1 output, 0 input (R22) -/
  d7oe : Level
  /-- level of E (R23) -/
  e : Level
  /-- level of RW: 0 write, 1 read (R24) -/
  rw : Level
  /-- level of RS: 0 instruction register, 1 data register (R25) -/
  rs : Level
  /-- level of the power-enable line (R26) -/
  pwr : Level
  /-- busy flag as last sampled (R27) -/
  bf : Level
  /-- program counter, a stack of labels, top first (R28) -/
  pc : List Label
  /-- code of the command being executed (R30) -/
  op : OpCode
  /-- operand of the command being executed (R30) -/
  arg : Byte
  /-- register selector operand of WB (R31) -/
  sel : Level
  /-- byte operand of WB (R31) -/
  byt : Byte
  /-- operand of SN; only bits 7:4 are used (R32) -/
  nib : Byte
  /-- string byte last fetched by WRS (R33) -/
  ch : Byte
  /-- index of the next string byte of WRS (R33) -/
  sidx : Nat
  /-- status reads made by the poll in progress (R34) -/
  pollcnt : Nat
  /-- sticky fault flag (R35) -/
  fault : Level
  /-- STR, bound at acceptance of WRS (R51, R118); outside a WRS the spec gives it no value: empty after reset
  (DESIGN CHOICE, log entry 7), else still the last string bound (DESIGN CHOICE, log entry 15) -/
  str : Str
  /-- bus trace since reset (R73) -/
  bus : List BusEvent
  /-- operation trace since reset (R75) -/
  ops : List OpEvent
  /-- the parameter POLL_LIMIT; no step writes it (R8; log entry 5) -/
  pollLimit : Option Nat
  /-- the host's inputs at this and the later steps; past the end, no command and no reset (log entry 1) -/
  host : List HostInput
  /-- the LCD agent's answers to the next samples of D7; past the end, free values (log entry 2) -/
  lcd : List Level
  /-- how many free D7 values have been drawn (log entry 2) -/
  d7Draws : Nat
  /-- how many times reset has been asserted (log entry 4) -/
  resets : Nat
  deriving DecidableEq, Repr

/-- What the registers with no reset value hold in `State.reset`: 0 (R40 gives none; DESIGN CHOICE, log entry 3). -/
def UnspecifiedAtReset.zeros : UnspecifiedAtReset :=
  { dOut := 0, rs := false, bf := false, op := 0, arg := 0, sel := false, byt := 0, nib := 0, ch := 0, sidx := 0,
    pollcnt := 0 }

/-- No string: every index reads 0. -/
def Str.empty : Str := { cells := [], size := 0, tail := .zeros }

/-- The reset state of R40, with the unspecified registers at `u`, the parameter and the environment as given; STR is
empty (DESIGN CHOICE, log entry 7). -/
def State.afterReset (u : UnspecifiedAtReset) (pollLimit : Option Nat) (host : List HostInput) (lcd : List Level)
    (d7Draws resets : Nat) : State :=
  { dOut := u.dOut, d7oe := true, e := false, rw := false, rs := u.rs, pwr := false, bf := u.bf, pc := [],
    op := u.op, arg := u.arg, sel := u.sel, byt := u.byt, nib := u.nib, ch := u.ch, sidx := u.sidx,
    pollcnt := u.pollcnt, fault := false, str := Str.empty, bus := [], ops := [], pollLimit := pollLimit,
    host := host, lcd := lcd, d7Draws := d7Draws, resets := resets }

/-- The machine right after reset (R40), POLL_LIMIT `none`, nothing offered by the host and nothing scripted for
the LCD. -/
def State.reset : State :=
  State.afterReset UnspecifiedAtReset.zeros none [] [] 0 0

end Sys2Proof.Machine
end

