-- ==== Sys2Proof/Machine/Ops.lean ====
section
/-! DEFINITION. The shared operations: the string space (20_memory.md), the micro-actions (40_gpio_line_ops.md), the
moves of the program counter (R28, R117), the fault's recording (R221), reset (R250), the environment's inputs and
command acceptance (R118). -/

namespace Sys2Proof.Machine

/-! ## The string space -/

/-- What an unlisted index of a listed string reads as: 0 (R51). -/
def Memory.unlisted : Byte := 0

/-- The byte at an index. -/
def Memory.read : Memory → Nat → Byte
  | [], _ => Memory.unlisted
  | (a, b) :: rest, i => if a = i then b else Memory.read rest i

/-- Canonical from index `lo` on: indexes strictly rising, no entry equal to what an unlisted index reads as. -/
def Memory.wfFrom (lo : Nat) : Memory → Bool
  | [] => true
  | (a, b) :: rest => decide (lo ≤ a) && decide (b ≠ Memory.unlisted) && Memory.wfFrom (a + 1) rest

/-- The canonical form. -/
def Memory.wf (m : Memory) : Bool := Memory.wfFrom 0 m

/-- The bytes of a list at indexes from `i` on, in canonical form. -/
def Memory.ofBytesFrom (i : Nat) : List Byte → Memory
  | [] => []
  | b :: rest =>
    if b = Memory.unlisted then Memory.ofBytesFrom (i + 1) rest else (i, b) :: Memory.ofBytesFrom (i + 1) rest

/-- The bytes of a list at indexes from 0 on, in canonical form. -/
def Memory.ofBytes (bs : List Byte) : Memory := Memory.ofBytesFrom 0 bs

/-- The byte a tail gives at an index (R51). -/
def StreamTail.at (i : Nat) : StreamTail → Byte
  | .zeros => 0
  | .repeats b => b
  | .free id => Config.streamByte id i

/-- `MemRead(STR, i, 1) = STR(i)`: no side effect, no fault, every index legal (R51, R58). -/
def Str.read (t : Str) (i : Nat) : Byte :=
  if i < t.size then Memory.read t.cells i else StreamTail.at i t.tail

/-- The string space is canonical and lists no index past its size. -/
def Str.wf (t : Str) : Bool :=
  Memory.wf t.cells && t.cells.all (fun c => decide (c.1 < t.size))

/-- The string space of a string argument (R51). -/
def Str.ofArg (a : StringArg) : Str :=
  { cells := Memory.ofBytes a.bytes, size := a.bytes.length, tail := a.tail }

/-! ## The two traces -/

/-- `emit x`: append `x` to the bus trace (R10, R73). -/
def State.emit (s : State) (x : BusEvent) : State := { s with bus := s.bus ++ [x] }

/-- `emitop x`: append `x` to the operation trace (R10, R75). -/
def State.emitOp (s : State) (x : OpEvent) : State := { s with ops := s.ops ++ [x] }

/-! ## The micro-actions (R110) -/

/-- `SetDir(D7, d)` (R111). -/
def State.setDir (s : State) (d : Dir) : State :=
  State.emit { s with d7oe := decide (d = .output) } (.dir d)

/-- The register of a line written with a level, no event (R112). -/
def State.writeLine (s : State) (line : Line) (v : Level) : State :=
  match line with
  | .e => { s with e := v }
  | .rw => { s with rw := v }
  | .rs => { s with rs := v }
  | .pwr => { s with pwr := v }

/-- `SetLevel(L, v)`; the event is emitted also when the register already held `v` (R112). -/
def State.setLevel (s : State) (line : Line) (v : Level) : State :=
  State.emit (State.writeLine s line v) (.lvl line v)

/-- `SetData(n)` (R113). -/
def State.setData (s : State) (n : Nibble) : State :=
  State.emit { s with dOut := n } (.data n)

/-- `Wait(t)`: no register changes (R119). -/
def State.wait (s : State) (t : Micros) : State := State.emit s (.wait t)

/-- The `i`-th of the LCD agent's next answers: the scripted one, or a free value after the script's end
(R69; log entry 2). -/
def State.drawAt (s : State) (i : Nat) : Level :=
  match s.lcd[i]? with
  | some b => b
  | none => Config.d7Draw (s.d7Draws + (i - s.lcd.length))

/-- The state after the next answer of the LCD agent has been used. -/
def State.tookDraw (s : State) : State :=
  match s.lcd with
  | [] => { s with d7Draws := s.d7Draws + 1 }
  | _ :: rest => { s with lcd := rest }

/-- The level `ReadLevel(D7)` returns (R114): a draw when D7 is an input, else the block's own output latch. -/
def State.levelOnD7 (s : State) : Level :=
  match s.d7oe with
  | false => s.drawAt 0
  | true => s.dOut.getLsbD 3

/-- The state after `ReadLevel(D7)` (R114): the event, and the draw used up when there was one. -/
def State.readLevelD7 (s : State) : State :=
  match s.d7oe with
  | false => State.emit s.tookDraw (.sample s.levelOnD7)
  | true => State.emit s (.sample s.levelOnD7)

/-! ## The program counter (R28, R117): each replaces or pops the top label -/

/-- `next` is a label: `pc <- L' :: rest`. -/
def State.goTo (s : State) (l : Label) : State := { s with pc := l :: s.pc.tail }

/-- `call P` with next `then L'`: `pc <- P.entry :: L' :: rest`. -/
def State.callThen (s : State) (entry cont : Label) : State := { s with pc := entry :: cont :: s.pc.tail }

/-- `call P` with next `then ret`: `pc <- P.entry :: rest`. -/
def State.callRet (s : State) (entry : Label) : State := { s with pc := entry :: s.pc.tail }

/-- `ret`: `pc <- rest`. -/
def State.ret (s : State) : State := { s with pc := s.pc.tail }

/-! ## The fault and reset -/

/-- `raise ControllerUnresponsive(pollcnt)`, row PF3: the sticky flag is set, the event recorded with the count, `pc`
emptied, so that the whole command is abandoned. Nothing is saved, and there is no return (R221, R226, R227). STR keeps
the string of an abandoned WRS (DESIGN CHOICE, log entry 15). -/
def State.raiseControllerUnresponsive (s : State) : State :=
  State.emitOp { s with fault := true, pc := [] } (.fault .controllerUnresponsive s.pollcnt)

/-- The next state at a step where reset is asserted (R250): the reset state of R40, whatever the block was doing;
the registers with no reset value take a fresh free record (log entry 4). No bus event is emitted. -/
def State.resetStep (s : State) : State :=
  State.afterReset (Config.resetDraw s.resets) s.pollLimit s.host s.lcd s.d7Draws (s.resets + 1)

/-! ## The environment's inputs (R117; log entry 1) -/

/-- The reset input is asserted at this step. -/
def State.resetAsserted (s : State) : Bool :=
  match s.host with
  | .reset :: _ => true
  | _ => false

/-- The command the host offers at this step. -/
def State.offered (s : State) : Option Offer :=
  match s.host with
  | .offer o :: _ => some o
  | .keep o :: _ => some o
  | _ => none

/-- The host's inputs after a step at which the block was idle, so that an offered command was taken. -/
def hostAfterIdle : List HostInput → List HostInput
  | [] => []
  | _ :: rest => rest

/-- The host's inputs after a step at which the block was busy: a command kept on the port stays on it. -/
def hostAfterBusy : List HostInput → List HostInput
  | [] => []
  | .keep o :: rest => .keep o :: rest
  | .quiet :: rest => rest
  | .reset :: rest => rest
  | .offer _ :: rest => rest

/-- The state with other inputs of the host. -/
def State.withHost (s : State) (h : List HostInput) : State := { s with host := h }

/-- The state with the host's input of this step used up. -/
def State.tookInput (s : State) : State :=
  match s.pc with
  | [] => s.withHost (hostAfterIdle s.host)
  | _ :: _ => s.withHost (hostAfterBusy s.host)

/-! ## Command acceptance (R118) -/

/-- Acceptance of a command: `op` and `arg` latched, `pc` set to the entry label (empty for NOP), no event. Where the
block is not idle the command is not seen (R118; log entry 14). STR keeps the string of an earlier WRS
(DESIGN CHOICE, log entry 15). -/
def State.accept (s : State) (op : OpCode) (arg : Byte) (entry : List Label) : Host.Outcome State Fault Refusal :=
  match s.pc with
  | [] => .next { s with op := op, arg := arg, pc := entry }
  | _ :: _ => .next s

/-- Acceptance of WRS: besides, `sidx <- 0` and STR is bound to the string for the whole command (R118, R51), and by the
model's choice until the next WRS or reset (DESIGN CHOICE, log entry 15). -/
def State.acceptString (s : State) (op : OpCode) (arg : Byte) (str : StringArg) (entry : List Label) :
    Host.Outcome State Fault Refusal :=
  match s.pc with
  | [] => .next { s with op := op, arg := arg, sidx := 0, str := Str.ofArg str, pc := entry }
  | _ :: _ => .next s

end Sys2Proof.Machine
end

