-- ==== Sys2Proof/Machine/Operands.lean ====
section
/-! DEFINITION. Operand forms: nibble extraction (R85, R56), the set-cursor byte (R86), the row operand (R164) and
the level operand of PWR (R89, R115). -/

namespace Sys2Proof.Machine

/-- `v[7:4]`: what SN puts on D7..D4 (R56, R85). -/
def highNibble (v : Byte) : Nibble := v.extractLsb' 4 4

/-- `v[3:0]`: the low nibble of a byte (R85). -/
def lowNibble (v : Byte) : Nibble := v.extractLsb' 0 4

/-- `(byt << 4)[7:0]`: the operand of WB's second SN, a shift on 8 bits with the high bits lost (R85, R87). -/
def shiftedForLow (byt : Byte) : Byte := byt <<< 4

/-- `OP_SETCUR | base` (R86). -/
def setCursorByte (base : Byte) : Byte := Config.opSetcur ||| base

/-- The byte SETCUR sends for a row, compared as an 8-bit value; none for a row other than 1 and 2 (R164, R92). -/
def rowByte (row : Byte) : Option Byte :=
  if row = 1 then some (setCursorByte Config.row1Base)
  else if row = 2 then some (setCursorByte Config.row2Base)
  else none

/-- `arg[0]`, the level operand of PWR; `arg[7:1]` are ignored (R89, R115). -/
def levelOperand (arg : Byte) : Level := arg.getLsbD 0

end Sys2Proof.Machine
end

