-- ==== Sys2Proof/Machine/ByteWriters.lean ====
section
/-! DEFINITION. The byte writers: WB (R160), WRI (R161), WRC (R162), WRS (R163), SETCUR (R164). -/

namespace Sys2Proof.Machine

/-- The rows of WB, the common byte writer (R160). -/
def wbRow (l : WbLabel) (s : State) : State :=
  match l with
  | .w1 => (s.setLevel .rs s.sel).goTo (.wb .w2)
  | .w2 => (s.setLevel .rw false).goTo (.wb .w3)
  | .w3 => State.callThen { s with nib := s.byt } (.sn .n1) (.wb .w4)
  | .w4 => State.callThen { s with nib := shiftedForLow s.byt } (.sn .n1) (.wb .w5)
  | .w5 =>
    match s.sel with
    | false => (s.emitOp (.instrWrite s.byt)).ret
    | true => (s.emitOp (.charWrite s.byt)).ret

/-- Row A1: `sel <- 0`; `byt <- arg`; `call WB` then ret (R161). -/
def a1Row (s : State) : State := State.callRet { s with sel := false, byt := s.arg } (.wb .w1)

/-- WRI: accepted, entry A1 (R161, R118). -/
def execWri (b : Byte) (s : State) : Host.Outcome State Fault Refusal := s.accept 1 b [.a1]

/-- Row B1: `sel <- 1`; `byt <- arg`; `call WB` then ret (R162). -/
def b1Row (s : State) : State := State.callRet { s with sel := true, byt := s.arg } (.wb .w1)

/-- WRC: accepted, entry B1 (R162, R118). -/
def execWrc (b : Byte) (s : State) : Host.Outcome State Fault Refusal := s.accept 2 b [.b1]

/-- The rows of WRS (R163): one fetch a character, the terminator test before the poll. S2's return leaves STR bound
(DESIGN CHOICE, log entry 15). -/
def wrsRow (l : WrsLabel) (s : State) : State :=
  match l with
  | .s1 => State.goTo { s with ch := s.str.read s.sidx } (.wrs .s2)
  | .s2 => if s.ch = 0 then s.ret else s.goTo (.wrs .s3)
  | .s3 => s.callThen (.pl .p1) (.wrs .s4)
  | .s4 => State.callThen { s with sel := true, byt := s.ch } (.wb .w1) (.wrs .s5)
  | .s5 => State.goTo { s with sidx := s.sidx + 1 } (.wrs .s1)

/-- WRS: accepted, entry S1, `sidx <- 0`, STR bound (R163, R118). -/
def execWrs (arg : Byte) (str : StringArg) (s : State) : Host.Outcome State Fault Refusal :=
  s.acceptString 3 arg str [.wrs .s1]

/-- Row C1: branch on `arg`; rows other than 1 and 2 end the command at once (R164, R92). -/
def c1Row (s : State) : State :=
  match rowByte s.arg with
  | some b => State.callRet { s with sel := false, byt := b } (.wb .w1)
  | none => s.ret

/-- SETCUR: accepted, entry C1 (R164, R118). -/
def execSetcur (row : Byte) (s : State) : Host.Outcome State Fault Refusal := s.accept 4 row [.c1]

end Sys2Proof.Machine
end

