-- ==== Sys2Proof/Machine/GpioLine.lean ====
section
/-! DEFINITION. The two commands of the GPIO layer: PWR (R115) and NOP (R116). -/

namespace Sys2Proof.Machine

/-- Row V1: `SetLevel(PWR, arg[0])`; ret (R115). -/
def v1Row (s : State) : State := (s.setLevel .pwr (levelOperand s.arg)).ret

/-- PWR: accepted, entry V1 (R115, R118). -/
def execPwr (arg : Byte) (s : State) : Host.Outcome State Fault Refusal := s.accept 6 arg [.v1]

/-- NOP: accepted, `op` and `arg` latched, `pc` stays empty (R116, R118). -/
def execNop (arg : Byte) (s : State) : Host.Outcome State Fault Refusal := s.accept 7 arg []

end Sys2Proof.Machine
end

