-- ==== Sys2Proof/Machine/Initialize.lean ====
section
/-! DEFINITION. INIT, the initialization sequence (R190). -/

namespace Sys2Proof.Machine

/-- `nib <- v`; `call SN` then `cont` (rows I3, I5, I7, I9). -/
def initSend (v : Byte) (cont : InitLabel) (s : State) : State :=
  State.callThen { s with nib := v } (.sn .n1) (.init cont)

/-- `emitop NibbleSend(nib[7:4])`; `Wait(t)`; `emitop Delay(t)`; next (rows I4, I6, I8). -/
def initSent (t : Micros) (next : InitLabel) (s : State) : State :=
  (((s.emitOp (.nibbleSend (highNibble s.nib))).wait t).emitOp (.delay t)).goTo (.init next)

/-- `sel <- 0`; `byt <- b`; `call WB` then `cont` (rows I11, I13, I15, I17). -/
def initWrite (b : Byte) (cont : InitLabel) (s : State) : State :=
  State.callThen { s with sel := false, byt := b } (.wb .w1) (.init cont)

/-- The rows of INIT (R190). -/
def initRow (l : InitLabel) (s : State) : State :=
  match l with
  | .i0 => (s.setLevel .rs false).goTo (.init .i1)
  | .i1 => (s.setLevel .rw false).goTo (.init .i2)
  | .i2 => ((s.wait Config.tPwrOn).emitOp (.delay Config.tPwrOn)).goTo (.init .i3)
  | .i3 => initSend Config.opFrst .i4 s
  | .i4 => initSent Config.tRst1 .i5 s
  | .i5 => initSend Config.opFrst .i6 s
  | .i6 => initSent Config.tRst2 .i7 s
  | .i7 => initSend Config.opFrst .i8 s
  | .i8 => initSent Config.tRst3 .i9 s
  | .i9 => initSend Config.opFset4 .i10 s
  | .i10 => (s.emitOp (.nibbleSend (highNibble s.nib))).callThen (.pl .p1) (.init .i11)
  | .i11 => initWrite Config.opFset4 .i12 s
  | .i12 => s.callThen (.pl .p1) (.init .i13)
  | .i13 => initWrite Config.opDoff .i14 s
  | .i14 => s.callThen (.pl .p1) (.init .i15)
  | .i15 => initWrite Config.opClr .i16 s
  | .i16 => s.callThen (.pl .p1) (.init .i17)
  | .i17 => initWrite Config.opEmode .i18 s
  | .i18 => s.callThen (.pl .p1) (.init .i19)
  | .i19 => State.callRet { s with sel := false, byt := Config.opDon } (.wb .w1)

/-- INIT: accepted, entry I0 (R190, R118). -/
def execInit (arg : Byte) (s : State) : Host.Outcome State Fault Refusal := s.accept 0 arg [.init .i0]

end Sys2Proof.Machine
end

