-- ==== Sys2Proof/Machine/LcdBytes.lean ====
section
/-! DEFINITION. The nine rows of format LCDI (R88, R86). An LCD instruction byte reaches the LCD on a host's order in
one way, as the operand of WRI, which passes any byte through (R93, R98): each is the acceptance of that WRI, and the
rows A1 and W1 to W5 then put its two nibbles on the bus. What the LCD does with the byte is out of scope (R4).
DESIGN CHOICE, log entry 8. -/

namespace Sys2Proof.Machine

/-- LCD_CLEAR: 0x01 sent as `WRI 0x01` (R88, R98). -/
def execLcdClear (s : State) : Host.Outcome State Fault Refusal := s.accept 1 Config.opClr [.a1]

/-- LCD_HOME: 0x02 sent as `WRI 0x02` (R88, R98). -/
def execLcdHome (s : State) : Host.Outcome State Fault Refusal := s.accept 1 Config.opHome [.a1]

/-- LCD_ENTRY_MODE: 0x06 sent as `WRI 0x06` (R88, R93). -/
def execLcdEntryMode (s : State) : Host.Outcome State Fault Refusal := s.accept 1 Config.opEmode [.a1]

/-- LCD_DISPLAY_OFF: 0x08 sent as `WRI 0x08` (R88, R93). -/
def execLcdDisplayOff (s : State) : Host.Outcome State Fault Refusal := s.accept 1 Config.opDoff [.a1]

/-- LCD_DISPLAY_ON: 0x0C sent as `WRI 0x0C` (R88, R93). -/
def execLcdDisplayOn (s : State) : Host.Outcome State Fault Refusal := s.accept 1 Config.opDon [.a1]

/-- LCD_FUNCTION_SET_4BIT: 0x28 sent as `WRI 0x28` (R88, R93). -/
def execLcdFunctionSet4bit (s : State) : Host.Outcome State Fault Refusal := s.accept 1 Config.opFset4 [.a1]

/-- LCD_FUNCTION_RESET: 0x30 sent as `WRI 0x30` (R88, R93). The block itself sends only its high nibble, in INIT
(R190); lone nibbles are sent in INIT and nowhere else (R96), so on a host's order the whole byte goes out. -/
def execLcdFunctionReset (s : State) : Host.Outcome State Fault Refusal := s.accept 1 Config.opFrst [.a1]

/-- LCD_SET_CURSOR_ROW1: 0x80 sent as `WRI 0x80` (R86, R98: the bus effect of `SETCUR 1`). -/
def execLcdSetCursorRow1 (s : State) : Host.Outcome State Fault Refusal := s.accept 1 0x80 [.a1]

/-- LCD_SET_CURSOR_ROW2: 0xC0 sent as `WRI 0xC0` (R86, R98: the bus effect of `SETCUR 2`). -/
def execLcdSetCursorRow2 (s : State) : Host.Outcome State Fault Refusal := s.accept 1 0xC0 [.a1]

end Sys2Proof.Machine
end

