-- ==== Sys2Proof/Machine/Flags.lean ====
section
/-! DEFINITION. The flags: the busy flag `bf` (R27), written at P6 and tested at P13 (R131, R225). The sticky
`fault` flag is written by `State.raiseControllerUnresponsive` of Machine/Ops.lean and by reset only (R35). -/

namespace Sys2Proof.Machine

/-- `bf <- ReadLevel(D7)` (row P6, R131; R27: 1 busy, 0 ready). -/
def State.sampleBusy (s : State) : State := { s.readLevelD7 with bf := s.levelOnD7 }

/-- Where row P13 branches to. -/
inductive PollVerdict where
  | ready | giveUp | again
  deriving DecidableEq, Repr

/-- The test of row P13 on the new `pollcnt`: ready first, then the limit, then loop (R131, R225). -/
def pollVerdict (limit : Option Nat) (bf : Level) (cnt : Nat) : PollVerdict :=
  match bf, limit with
  | false, _ => .ready
  | true, none => .again
  | true, some l => if l ≤ cnt then .giveUp else .again

end Sys2Proof.Machine
end

