-- ==== Sys2Proof/Machine/NibbleEngine.lean ====
section
/-! DEFINITION. The Nibble Transfer Engine: SN (R130), PL with its fault exit (R131, R221) and POLL (R140). -/

namespace Sys2Proof.Machine

/-- The rows of SN, send-nibble (R130). -/
def snRow (l : SnLabel) (s : State) : State :=
  match l with
  | .n1 => (s.setData (highNibble s.nib)).goTo (.sn .n2)
  | .n2 => (s.setLevel .e true).goTo (.sn .n3)
  | .n3 => (s.wait Config.tEH).goTo (.sn .n4)
  | .n4 => (s.setLevel .e false).goTo (.sn .n5)
  | .n5 => (s.wait Config.tEL).ret

/-- Row P13 (R131): count the read, then branch on the new count. -/
def p13Row (s : State) : State :=
  match pollVerdict s.pollLimit s.bf (s.pollcnt + 1) with
  | .ready => State.goTo { s with pollcnt := s.pollcnt + 1 } (.pl .p14)
  | .giveUp => State.goTo { s with pollcnt := s.pollcnt + 1 } (.pl .pf1)
  | .again => State.goTo { s with pollcnt := s.pollcnt + 1 } (.pl .p4)

/-- The rows of PL, poll-until-ready (R131), and of its fault exit (R221). -/
def plRow (l : PlLabel) (s : State) : State :=
  match l with
  | .p1 => (State.setDir { s with pollcnt := 0 } .input).goTo (.pl .p2)
  | .p2 => (s.setLevel .rs false).goTo (.pl .p3)
  | .p3 => (s.setLevel .rw true).goTo (.pl .p4)
  | .p4 => (s.setLevel .e true).goTo (.pl .p5)
  | .p5 => (s.wait Config.tEH).goTo (.pl .p6)
  | .p6 => s.sampleBusy.goTo (.pl .p7)
  | .p7 => (s.setLevel .e false).goTo (.pl .p8)
  | .p8 => (s.wait Config.tEL).goTo (.pl .p9)
  | .p9 => (s.setLevel .e true).goTo (.pl .p10)
  | .p10 => (s.wait Config.tEH).goTo (.pl .p11)
  | .p11 => (s.setLevel .e false).goTo (.pl .p12)
  | .p12 => (s.wait Config.tEL).goTo (.pl .p13)
  | .p13 => p13Row s
  | .p14 => (s.setLevel .rw false).goTo (.pl .p15)
  | .p15 => ((s.setDir .output).emitOp (.busyPoll s.pollcnt)).ret
  | .pf1 => (s.setLevel .rw false).goTo (.pl .pf2)
  | .pf2 => (s.setDir .output).goTo (.pl .pf3)
  | .pf3 => s.raiseControllerUnresponsive

/-- Row Q1: `call PL`; ret (R140). -/
def q1Row (s : State) : State := s.callRet (.pl .p1)

/-- POLL: accepted, entry Q1 (R140, R118). -/
def execPoll (arg : Byte) (s : State) : Host.Outcome State Fault Refusal := s.accept 5 arg [.q1]

end Sys2Proof.Machine
end

