-- ==== Sys2Proof/Machine/Dispatch.lean ====
section
/-! DEFINITION. One arm for each constructor of Instr: the acceptance of the command (R118). -/

namespace Sys2Proof.Machine

def exec (i : Instr) (s : State) : Host.Outcome State Fault Refusal :=
  match i with
  | .init arg => Sys2Proof.Machine.execInit arg s
  | .wri b => Sys2Proof.Machine.execWri b s
  | .wrc b => Sys2Proof.Machine.execWrc b s
  | .wrs arg str => Sys2Proof.Machine.execWrs arg str s
  | .setcur row => Sys2Proof.Machine.execSetcur row s
  | .poll arg => Sys2Proof.Machine.execPoll arg s
  | .pwr arg => Sys2Proof.Machine.execPwr arg s
  | .nop arg => Sys2Proof.Machine.execNop arg s
  | .lcdClear => Sys2Proof.Machine.execLcdClear s
  | .lcdHome => Sys2Proof.Machine.execLcdHome s
  | .lcdEntryMode => Sys2Proof.Machine.execLcdEntryMode s
  | .lcdDisplayOff => Sys2Proof.Machine.execLcdDisplayOff s
  | .lcdDisplayOn => Sys2Proof.Machine.execLcdDisplayOn s
  | .lcdFunctionSet4bit => Sys2Proof.Machine.execLcdFunctionSet4bit s
  | .lcdFunctionReset => Sys2Proof.Machine.execLcdFunctionReset s
  | .lcdSetCursorRow1 => Sys2Proof.Machine.execLcdSetCursorRow1 s
  | .lcdSetCursorRow2 => Sys2Proof.Machine.execLcdSetCursorRow2 s

end Sys2Proof.Machine
end

