-- ==== Sys2Proof/Machine/Sequencer.lean ====
section
/-! DEFINITION. The sequencer performs the row of the top label (R117, case 3), and the placing of a command on the
port, from which the next step takes it (R118). -/

namespace Sys2Proof.Machine

/-- The row of a label in its procedure's table (R117). -/
def performRow (l : Label) (s : State) : State :=
  match l with
  | .sn k => snRow k s
  | .pl k => plRow k s
  | .wb k => wbRow k s
  | .a1 => a1Row s
  | .b1 => b1Row s
  | .wrs k => wrsRow k s
  | .c1 => c1Row s
  | .q1 => q1Row s
  | .v1 => v1Row s
  | .init k => initRow k s

/-- The instruction read from the command port (R81, R90). -/
def fetchOffered (o : Offer) : Instr := decodeCommand o.word o.str

/-- The offer that has the block run the table word `w`: a row of at most 8 bits is an LCD instruction byte and goes
on the port as `WRI` of it (log entry 8); a wider row is a command word, its string empty. -/
def offerOfTableWord (nbits w : Nat) : Offer :=
  if nbits ≤ 8 then { word := CmdWord.make 1 (BitVec.ofNat 8 w), str := StringArg.empty }
  else { word := BitVec.ofNat 11 w, str := StringArg.empty }

/-- The block idle with one offer on the port at the next step, before the host's other inputs (log entry 9). -/
def State.withOffer (s : State) (o : Offer) : State := { s with pc := [], host := .offer o :: s.host }

end Sys2Proof.Machine
end

