-- ==== Sys2Proof/Machine/Step.lean ====
section
/-! DEFINITION. One step of the sequencer (R117): reset first; then, idle, acceptance of an offered command (R118);
else the row of the top label. The host's input of the step is used up. -/

namespace Sys2Proof.Machine

def step (s : State) : Host.Outcome State Fault Refusal :=
  match s.resetAsserted, s.pc, s.offered with
  | true, _, _ => .next s.tookInput.resetStep
  | false, l :: _, _ => .next (performRow l s.tookInput)
  | false, [], none => .next s.tookInput
  | false, [], some o => exec (fetchOffered o) s.tookInput

def State.withFetchWord (s : State) (nbits w : Nat) : State := s.withOffer (offerOfTableWord nbits w)

end Sys2Proof.Machine
end

