-- ==== Sys2Proof/Machine/Observe.lean ====
section
/-! DEFINITION. What is seen from outside: the levels on the lines (R36), the bus frames (R82 to R84), the strobe view
of a bus trace (R74), the least time of a trace (R270). Nothing here is state and no step reads it. -/

namespace Sys2Proof.Machine

/-! ## Outputs (R36) -/

/-- `cmd_ready` is 1 exactly when `pc` is empty (R36). -/
def State.cmdReady (s : State) : Level := s.pc.isEmpty

/-- The level the block puts on D7; none while D7 is an input and the LCD agent drives it (R36). -/
def State.pinD7 (s : State) : Option Level :=
  match s.d7oe with
  | true => some (s.dOut.getLsbD 3)
  | false => none

/-- The level on D6, driven at all times (R36, R21). -/
def State.pinD6 (s : State) : Level := s.dOut.getLsbD 2
/-- The level on D5, driven at all times (R36, R21). -/
def State.pinD5 (s : State) : Level := s.dOut.getLsbD 1
/-- The level on D4, driven at all times (R36, R21). -/
def State.pinD4 (s : State) : Level := s.dOut.getLsbD 0

/-! ## Frames -/

/-- A write strobe: `Data(n)`, `Lvl(E,1)`, `Wait(T_EH)`, `Lvl(E,0)`, `Wait(T_EL)` (R82, R130). -/
def writeStrobe (n : Nibble) : List BusEvent :=
  [.data n, .lvl .e true, .wait Config.tEH, .lvl .e false, .wait Config.tEL]

/-- FRAME2W, the byte write frame: 12 events (R82, R160). -/
def byteFrame (sel : Level) (b : Byte) : List BusEvent :=
  [.lvl .rs sel, .lvl .rw false] ++ writeStrobe (highNibble b) ++ writeStrobe (lowNibble b)

/-- FRAME2R, the status read frame with sample `b`: 9 events (R84, R131). -/
def readFrame (b : Level) : List BusEvent :=
  [.lvl .e true, .wait Config.tEH, .sample b, .lvl .e false, .wait Config.tEL,
   .lvl .e true, .wait Config.tEH, .lvl .e false, .wait Config.tEL]

/-- The first three events of a poll (R131). -/
def pollHead : List BusEvent := [.dir .input, .lvl .rs false, .lvl .rw true]

/-- The last two events of a poll, by return or by fault (R131, R221). -/
def pollTail : List BusEvent := [.lvl .rw false, .dir .output]

/-- The read frames of `k` status reads that all sampled 1. -/
def busyReads : Nat → List BusEvent
  | 0 => []
  | k + 1 => readFrame true ++ busyReads k

/-- The bus trace of a poll that sampled 1 `k` times and then 0: `5 + 9(k+1)` events (R131). -/
def pollEvents (k : Nat) : List BusEvent := pollHead ++ busyReads k ++ readFrame false ++ pollTail

/-- The operation event of a completed byte write (R12, R160). -/
def byteOpEvent (sel : Level) (b : Byte) : OpEvent :=
  match sel with
  | false => .instrWrite b
  | true => .charWrite b

/-- The bus trace of rows I0 to I9 of INIT: `RS=0 RW=0`, the power-on wait, three function-reset nibbles with their
waits, the set-4-bit-mode nibble (R190, R192, R193). -/
def initHead : List BusEvent :=
  [.lvl .rs false, .lvl .rw false, .wait 40000] ++ writeStrobe 0x3 ++ [.wait 10] ++ writeStrobe 0x3 ++ [.wait 200] ++
    writeStrobe 0x3 ++ [.wait 80] ++ writeStrobe 0x2

/-- A poll with `k` busy reads, then the instruction write of `b`: the guarded writes of INIT (R194, R195). -/
def guardedWrite (k : Nat) (b : Byte) : List BusEvent := pollEvents k ++ byteFrame false b

/-- The bus trace of a good run of INIT whose polls have `k1` to `k5` busy reads (R190, R196). -/
def initEvents (k1 k2 k3 k4 k5 : Nat) : List BusEvent :=
  initHead ++ guardedWrite k1 0x28 ++ guardedWrite k2 0x08 ++ guardedWrite k3 0x01 ++ guardedWrite k4 0x06 ++
    guardedWrite k5 0x0C

/-- The operation trace of a good run of INIT whose polls have `k1` to `k5` busy reads (R190). -/
def initOpEvents (k1 k2 k3 k4 k5 : Nat) : List OpEvent :=
  [.delay 40000, .nibbleSend 0x3, .delay 10, .nibbleSend 0x3, .delay 200, .nibbleSend 0x3, .delay 80, .nibbleSend 0x2,
   .busyPoll (k1 + 1), .instrWrite 0x28, .busyPoll (k2 + 1), .instrWrite 0x08, .busyPoll (k3 + 1), .instrWrite 0x01,
   .busyPoll (k4 + 1), .instrWrite 0x06, .busyPoll (k5 + 1), .instrWrite 0x0C]

/-! ## The strobe view (R74) -/

/-- A strobe: a write with RS and the nibble, or a read with RS and the sample taken since E rose, if any. -/
inductive Strobe where
  | wr (rs : Level) (n : Nibble)
  | rd (rs : Level) (s : Option Level)
  deriving DecidableEq, Repr

/-- What the pass over the bus trace keeps (R74). -/
structure LineView where
  rs : Level
  rw : Level
  e : Level
  dOut : Nibble
  d7oe : Level
  last : Option Level
  deriving DecidableEq, Repr

/-- The view after one event. -/
def LineView.after (v : LineView) (x : BusEvent) : LineView :=
  match x with
  | .data n => { v with dOut := n }
  | .lvl .e true => { v with e := true, last := none }
  | .lvl .e false => { v with e := false }
  | .lvl .rw l => { v with rw := l }
  | .lvl .rs l => { v with rs := l }
  | .lvl .pwr _ => v
  | .dir d => { v with d7oe := decide (d = .output) }
  | .sample b => { v with last := some b }
  | .wait _ => v

/-- The strobe an event completes: a `Lvl(E,0)` that follows a `Lvl(E,1)` (R74). -/
def LineView.strobeAt (v : LineView) (x : BusEvent) : List Strobe :=
  match x, v.e, v.rw with
  | .lvl .e false, true, false => [.wr v.rs v.dOut]
  | .lvl .e false, true, true => [.rd v.rs v.last]
  | _, _, _ => []

/-- The strobes of a bus trace, from a view of the lines at its start (R74). -/
def strobesFrom (v : LineView) : List BusEvent → List Strobe
  | [] => []
  | x :: rest => v.strobeAt x ++ strobesFrom (v.after x) rest

/-- The view of the lines in a state: what a pass over the events from there on starts with. -/
def State.lineView (s : State) : LineView :=
  { rs := s.rs, rw := s.rw, e := s.e, dOut := s.dOut, d7oe := s.d7oe, last := none }

/-! ## Time (R270, R271) -/

/-- The least duration of a bus trace: the sum of its waits. -/
def elapsed : List BusEvent → Micros
  | [] => 0
  | .wait t :: rest => t + elapsed rest
  | .data _ :: rest => elapsed rest
  | .lvl _ _ :: rest => elapsed rest
  | .dir _ :: rest => elapsed rest
  | .sample _ :: rest => elapsed rest

end Sys2Proof.Machine
end

