-- ==== Sys2Proof/Safety.lean ====
section
/-! DEFINITION. The terms that claims use: runs, the hosts and draws a claim allows, and the invariant of the block
(10_state.md rules R22 to R24, R28, R37, R38; R94, R138, R35). -/

namespace Sys2Proof.Safety

open Sys2Proof.Machine

/-- `n` steps of the machine. -/
def run (n : Nat) (s : State) : Host.Outcome State Fault Refusal := Host.Core.run Sys2Proof.core n s

/-- The host asserts no reset at the next `n` steps of a busy block. -/
def noReset : Nat → List HostInput → Bool
  | 0, _ => true
  | _ + 1, [] => true
  | _ + 1, .keep _ :: _ => true
  | _ + 1, .reset :: _ => false
  | n + 1, .quiet :: rest => noReset n rest
  | n + 1, .offer _ :: rest => noReset n rest

/-- The host's inputs after `n` steps of a busy block. -/
def hostAfter : Nat → List HostInput → List HostInput
  | 0, h => h
  | n + 1, h => hostAfter n (hostAfterBusy h)

/-- `n` rows of the sequencer with the environment's host left aside; it stays where it is once idle. -/
def rows : Nat → State → State
  | 0, s => s
  | n + 1, s =>
    match s.pc with
    | [] => s
    | l :: _ => rows n (performRow l s)

/-- The block is idle (R14). -/
def Idle (s : State) : Prop := s.pc = []

/-- Some sample of the poll that starts in this state with the next answer is 0: one of the LCD's answers from here on
and, where POLL_LIMIT is `some L`, one of the `L` that the poll takes at most. -/
def PollReady (s : State) : Prop := ∃ j, s.drawAt j = false ∧ ∀ L, s.pollLimit = some L → j < L

/-- The liveness premise of R71: in every poll, some sample is 0; here every poll that starts, at P1, in the run from
`s`. A premise a claim may take, no property of the model. -/
def EventuallyReady (s : State) : Prop :=
  ∀ (n : Nat) (t : State) (rest : List Label), run n s = .next t → t.pc = .pl .p1 :: rest → PollReady t

/-- The host never asserts reset. -/
def NeverReset (s : State) : Prop := ∀ x ∈ s.host, x ≠ HostInput.reset

/-- The string ends: some byte of it is 0. A string with no zero byte is legal and makes WRS run for ever (R51, R222). -/
def Terminated (a : StringArg) : Prop := ∃ i, (Str.ofArg a).read i = 0

/-! ## Runs of commands (R76) -/

/-- A run of the command `o`, from `s` to `u` in `n` steps: it begins at the step that accepts `o` and ends at the first
later step at which `pc` is empty. Only the accepting step is bound to be no reset: a later one would empty `pc`, and so
end the run, as R76 is worded. -/
structure CommandRun (o : Offer) (s : State) (n : Nat) (u : State) : Prop where
  /-- the block is idle, sees no reset and is offered `o`: its first step accepts `o` (R117, R118) -/
  idle : s.pc = []
  notReset : s.resetAsserted = false
  offered : s.offered = some o
  /-- the accepting step and `n - 1` more lead to `u` -/
  steps : 0 < n ∧ run n s = .next u
  /-- `u` is idle -/
  ends : u.pc = []
  /-- and no state between is -/
  first : ∀ m t, 0 < m → m < n → run m s = .next t → t.pc ≠ []

/-- A run of a command list: the runs of its commands in order (R76). That steps of an idle block to which nothing is offered
may stand before the first command, between two and after the last, and make up a run of the empty list, is the model's
choice (DESIGN CHOICE, log entry 16). -/
inductive CommandListRun : List Offer → State → Nat → State → Prop where
  | done (s : State) : CommandListRun [] s 0 s
  | wait (os : List Offer) (s t u : State) (n : Nat) (hp : s.pc = []) (hr : s.resetAsserted = false)
      (ho : s.offered = none) (hs : step s = .next t) (h : CommandListRun os t n u) : CommandListRun os s (n + 1) u
  | command (o : Offer) (os : List Offer) (s t u : State) (m n : Nat) (hc : CommandRun o s m t)
      (h : CommandListRun os t n u) : CommandListRun (o :: os) s (m + n) u

/-- A run of a command is good when it ends and `fault` is 0 (R76). It does not say that the LCD is done with the last
write. -/
def GoodRun (o : Offer) (s : State) (n : Nat) (u : State) : Prop := CommandRun o s n u ∧ u.fault = false

/-- A run of a command list is good when it ends and `fault` is 0 (R76). -/
def GoodListRun (os : List Offer) (s : State) (n : Nat) (u : State) : Prop := CommandListRun os s n u ∧ u.fault = false

/-! ## The LCD's answers -/

/-- The LCD agent's answers of one poll that samples 1 `k` times and then 0. -/
def busyThenReady (k : Nat) : List Level := List.replicate k true ++ [false]

/-- The LCD's next answers are `bs`, scripted or free. -/
def Answers (s : State) (bs : List Level) : Prop := ∀ (i : Nat) (h : i < bs.length), s.drawAt i = bs[i]

/-- The state after the LCD's next `n` answers have been used. -/
def afterDraws (n : Nat) (s : State) : State :=
  { s with lcd := s.lcd.drop n, d7Draws := s.d7Draws + (n - s.lcd.length) }

/-- What the last character that WRS wrote, after a poll with so many busy reads, leaves in the registers of PL, WB and
SN and on the lines; nothing where it wrote none (R163). -/
def afterLastCharacter (s : State) : Option (Byte × Nat) → State
  | none => s
  | some (c, k) =>
    { s with
      sel := true, byt := c, nib := shiftedForLow c, dOut := lowNibble c, d7oe := true, e := false, rw := false,
      rs := true, bf := false, pollcnt := k + 1 }

/-- The strobe writes (R74). -/
def isWrite : Strobe → Bool
  | .wr _ _ => true
  | .rd _ _ => false

/-! ## The shape of `pc` (R28) -/

/-- What may stand below a label of WB: nothing, or where WRS or INIT goes on. -/
def belowWb : List Label → Bool
  | [] => true
  | [.wrs .s5] => true
  | [.init .i12] => true
  | [.init .i14] => true
  | [.init .i16] => true
  | [.init .i18] => true
  | _ => false

/-- What may stand below a label of PL: nothing, or where WRS or INIT goes on. -/
def belowPl : List Label → Bool
  | [] => true
  | [.wrs .s4] => true
  | [.init .i11] => true
  | [.init .i13] => true
  | [.init .i15] => true
  | [.init .i17] => true
  | [.init .i19] => true
  | _ => false

/-- What may stand below a label of SN: where WB or INIT goes on. -/
def belowSn : List Label → Bool
  | .wb .w4 :: rest => belowWb rest
  | .wb .w5 :: rest => belowWb rest
  | [.init .i4] => true
  | [.init .i6] => true
  | [.init .i8] => true
  | [.init .i10] => true
  | _ => false

/-- The stacks of labels that the procedure tables make. -/
def stackOk : List Label → Bool
  | [] => true
  | .sn _ :: rest => belowSn rest
  | .wb _ :: rest => belowWb rest
  | .pl _ :: rest => belowPl rest
  | .a1 :: rest => rest.isEmpty
  | .b1 :: rest => rest.isEmpty
  | .wrs _ :: rest => rest.isEmpty
  | .c1 :: rest => rest.isEmpty
  | .q1 :: rest => rest.isEmpty
  | .v1 :: rest => rest.isEmpty
  | .init _ :: rest => rest.isEmpty

/-! ## The levels at a label (R22, R23, R24, R139) -/

/-- Where E is high: from after N2 to N4, from after P4 to P7, from after P9 to P11 (R23). -/
def eAt : List Label → Level
  | .sn .n3 :: _ => true
  | .sn .n4 :: _ => true
  | .pl .p5 :: _ => true
  | .pl .p6 :: _ => true
  | .pl .p7 :: _ => true
  | .pl .p10 :: _ => true
  | .pl .p11 :: _ => true
  | _ => false

/-- Where RW is read: from after P3 until P14 or PF1 (R24, R139). -/
def rwAt : List Label → Level
  | .pl .p1 :: _ => false
  | .pl .p2 :: _ => false
  | .pl .p3 :: _ => false
  | .pl .p15 :: _ => false
  | .pl .pf2 :: _ => false
  | .pl .pf3 :: _ => false
  | .pl _ :: _ => true
  | _ => false

/-- Where D7 is an output: everywhere but from after P1 until P15 or PF2 (R22, R139). -/
def d7oeAt : List Label → Level
  | .pl .p1 :: _ => true
  | .pl .pf3 :: _ => true
  | .pl _ :: _ => false
  | _ => true

/-- Where a poll has selected the instruction register: from after P2 (R25, R131). -/
def pollSelectsIr : List Label → Bool
  | .pl .p1 :: _ => false
  | .pl .p2 :: _ => false
  | .pl _ :: _ => true
  | _ => false

/-- The normal exit of a poll. -/
def atReadyExit : List Label → Bool
  | .pl .p14 :: _ => true
  | .pl .p15 :: _ => true
  | _ => false

/-- The fault exit of a poll. -/
def atFaultExit : List Label → Bool
  | .pl .pf1 :: _ => true
  | .pl .pf2 :: _ => true
  | .pl .pf3 :: _ => true
  | _ => false

/-- The invariant of the block: what holds at every step of every run. -/
structure Inv (s : State) : Prop where
  /-- `pc` is a stack the procedure tables make (R28) -/
  stack : stackOk s.pc = true
  /-- E is high only inside a strobe (R23) -/
  eLine : s.e = eAt s.pc
  /-- RW is read only in the busy-poll critical section (R24) -/
  rwLine : s.rw = rwAt s.pc
  /-- D7 is an input only inside the poll (R22) -/
  d7Dir : s.d7oe = d7oeAt s.pc
  /-- the poll reads the instruction register, never the data register (R94) -/
  pollIr : pollSelectsIr s.pc = true → s.rs = false
  /-- a poll leaves normally only after a sample of 0 (R131) -/
  readyExit : atReadyExit s.pc = true → s.bf = false
  /-- a poll leaves by its fault exit only after a sample of 1, and only with a limit (R138, R221) -/
  faultExit : atFaultExit s.pc = true → s.bf = true ∧ s.pollLimit ≠ none
  /-- `fault` can be 1 only when POLL_LIMIT is `some L` (R35) -/
  faultLimited : s.fault = true → s.pollLimit ≠ none
  /-- the string space is canonical -/
  strOk : s.str.wf = true

end Sys2Proof.Safety
end

