-- ==== Sys2Proof/Certificates/Slice0/Obligations.lean ====
section
/-! DEFINITION. The statements for the provers. Where a docstring names a decision D<n> of 92_eei_decisions.md or a log
entry, the clause is the spec's or the model's own choice and the statement cites no rule for it. -/

open Sys2Proof Sys2Proof.Machine Sys2Proof.Safety

/-! ## Encoding -/

/-- Decode of encode gives every well-formed instruction back, every operand at every value (30_encoding.md sections 2, 4
and 5; the numbering is decision D2). -/
def Obligations.DecodeEncodeIsIdentity : Prop :=
  ∀ i : Instr, i.wellFormed = true → decode (encode i) = .ok i

/-- No bit of a command word is dropped: encoding what a word decodes to gives the word back, and for WRS, the one
command that has a string, the string as well (30_encoding.md section 2, decision D2). -/
def Obligations.EncodeDecodeGivesCommandWordBack : Prop :=
  ∀ (w : CmdWord) (str : StringArg), ∃ str',
    encode (decodeCommand w str) = .cmd w str' ∧ (w.opField = 3 → str' = str)

/-- The LCD instruction bytes are exactly the nine of the table: each of the nine decodes, what a byte decodes to encodes
to that byte, and every other byte is refused by name (30_encoding.md section 4; that the package has a decoder of these
bytes at all is the model's choice, log entry 8: the block sends them and decodes none). -/
def Obligations.LcdByteDecodesOnlyToItsOwnRow : Prop :=
  (∀ (b : Byte) (i : Instr), decode (.lcd b) = .ok i → encode i = .lcd b) ∧
  (∀ b : Byte, b ∈ [0x01, 0x02, 0x06, 0x08, 0x0C, 0x28, 0x30, 0x80, 0xC0] → ∃ i, decode (.lcd b) = .ok i) ∧
  (∀ b : Byte, b ∉ [0x01, 0x02, 0x06, 0x08, 0x0C, 0x28, 0x30, 0x80, 0xC0] →
    decode (.lcd b) = .error (.notAnLcdInstruction b))

/-- The words V-E1 to V-E14 of 95_test_vectors.md and the nine bytes of 30_encoding.md section 4 decode to the instructions
of the opcode table. Two points are the model's choice: that the word 0x300, read without its string, is a WRS of the empty
string (log entry 13), and that an LCD instruction byte, which the block decodes nowhere, is read as its row (log entry 8).
A sanity statement. -/
def Obligations.SpecWordsDecodeAsTheSpecSays : Prop :=
  [0x000, 0x0FF, 0x128, 0x241, 0x300, 0x401, 0x402, 0x400, 0x4FF, 0x500, 0x601, 0x6FE, 0x700, 0x7A5].map
      (decodeTableWord 16) =
    [some (.init 0x00), some (.init 0xFF), some (.wri 0x28), some (.wrc 0x41), some (.wrs 0x00 ⟨[], .zeros⟩),
     some (.setcur 1), some (.setcur 2), some (.setcur 0), some (.setcur 255), some (.poll 0x00), some (.pwr 0x01),
     some (.pwr 0xFE), some (.nop 0x00), some (.nop 0xA5)] ∧
  [0x01, 0x02, 0x06, 0x08, 0x0C, 0x28, 0x30, 0x80, 0xC0].map (decodeTableWord 8) =
    [some .lcdClear, some .lcdHome, some .lcdEntryMode, some .lcdDisplayOff, some .lcdDisplayOn,
     some .lcdFunctionSet4bit, some .lcdFunctionReset, some .lcdSetCursorRow1, some .lcdSetCursorRow2]

/-! ## The step -/

/-- A step runs the decoded instruction: the block idle, no reset, and on the port the word and string that decode to
`i`: the step is `exec i` on the state with the host's input used up, and adds nothing (40_gpio_line_ops.md section 3;
decisions D1 and D22; log entry 1). -/
def Obligations.StepRunsOfferedCommand : Prop :=
  ∀ (s : State) (o : Offer) (i : Instr) (rest : List HostInput), s.pc = [] →
    (s.host = .offer o :: rest ∨ s.host = .keep o :: rest) → decode (.cmd o.word o.str) = .ok i →
    step s = exec i { s with host := rest }

/-- Every row of the opcode table runs as the first instruction of an idle block: the step after `withFetchWord` is `exec`
of what the table word decodes to, for all 2048 command words and the nine LCD bytes (log entries 8 and 9). -/
def Obligations.TableWordsRunAsDecoded : Prop :=
  (∀ (s : State) (w : Nat) (i : Instr), decodeTableWord 16 w = some i →
    step (s.withFetchWord 16 w) = exec i { s with pc := [] }) ∧
  (∀ (s : State) (w : Nat) (i : Instr), decodeTableWord 8 w = some i →
    step (s.withFetchWord 8 w) = exec i { s with pc := [] })

/-- The sequencer is never stuck and never refuses: every state has a next state (40_gpio_line_ops.md section 3,
60_exceptions.md section 1). -/
def Obligations.EveryStateHasNextState : Prop :=
  ∀ s : State, ∃ t, step s = .next t

/-- An idle block to which the host offers nothing keeps every register and both traces (40_gpio_line_ops.md section 3,
"if the host offers no command, nothing changes"). That the host's inputs are a list in State, and that it offers nothing
after the list's end, is the model's choice (log entry 1). -/
def Obligations.IdleWithoutOfferChangesNothing : Prop :=
  ∀ (s : State) (rest : List HostInput), s.pc = [] →
    (s.host = .quiet :: rest → step s = .next { s with host := rest }) ∧ (s.host = [] → step s = .next s)

/-- A command offered while the block is busy is not seen: what the host offers, short of reset, has no effect on the next
state but on the host's own later inputs (40_gpio_line_ops.md section 3, decision D22). -/
def Obligations.BusyBlockSeesNoOffer : Prop :=
  ∀ (s t : State) (h : List HostInput), s.pc ≠ [] → (∀ rest, s.host ≠ .reset :: rest) → (∀ rest, h ≠ .reset :: rest) →
    step s = .next t → ∃ h', step { s with host := h } = .next { t with host := h' }

/-- At a step that asserts no reset the bus trace grows by at most one event, and the lines after it are what that event
says of the lines before it: no row changes a pin without its event (20_memory.md sections 7 and 9,
40_gpio_line_ops.md section 1). -/
def Obligations.PinsChangeOnlyWithTheirEvent : Prop :=
  ∀ s t : State, (∀ rest, s.host ≠ .reset :: rest) → step s = .next t →
    ∃ xs : List BusEvent, t.bus = s.bus ++ xs ∧ xs.length ≤ 1 ∧
      { t.lineView with last := none } = { xs.foldl LineView.after s.lineView with last := none } ∧
      (t.pwr ≠ s.pwr → xs = [.lvl .pwr t.pwr])

/-! ## Reset -/

/-- `State.reset` has the values the spec gives for reset (10_state.md section 8, decisions D5, D8 and D19): idle, E low,
RW write, D7 an output, power off, no fault, both traces empty. -/
def Obligations.ResetStateHasTheSpecsValues : Prop :=
  State.reset.pc = [] ∧ State.reset.e = false ∧ State.reset.rw = false ∧ State.reset.d7oe = true ∧
  State.reset.pwr = false ∧ State.reset.fault = false ∧ State.reset.bus = [] ∧ State.reset.ops = [] ∧
  State.reset.cmdReady = true

/-- A step at which reset is asserted leads to the reset state whatever the block was doing, the registers with no reset
value at a free record (70_reset_and_hazards.md section 1, decisions D5 and D23; log entry 4): the equation holds
whatever `Config.resetDraw` is. That the string space is then the empty string is the model's choice (log entry 7). -/
def Obligations.ResetWinsOverEverything : Prop :=
  ∀ (s : State) (rest : List HostInput), s.host = .reset :: rest →
    step s = .next (State.afterReset (Config.resetDraw s.resets) s.pollLimit rest s.lcd s.d7Draws (s.resets + 1))

/-! ## Acceptance -/

/-- Acceptance by an idle block latches the code and the operand, sets `pc` to the entry label, binds the string for WRS,
and changes nothing else (40_gpio_line_ops.md section 3 and 30_encoding.md section 5; decisions D1, D2, D21). -/
def Obligations.AcceptanceLatchesCommandAndEntersItsTable : Prop :=
  ∀ s : State, s.pc = [] →
    (∀ a, exec (.init a) s = .next { s with op := 0, arg := a, pc := [.init .i0] }) ∧
    (∀ b, exec (.wri b) s = .next { s with op := 1, arg := b, pc := [.a1] }) ∧
    (∀ b, exec (.wrc b) s = .next { s with op := 2, arg := b, pc := [.b1] }) ∧
    (∀ a str, exec (.wrs a str) s =
      .next { s with op := 3, arg := a, sidx := 0, str := Str.ofArg str, pc := [.wrs .s1] }) ∧
    (∀ n, exec (.setcur n) s = .next { s with op := 4, arg := n, pc := [.c1] }) ∧
    (∀ a, exec (.poll a) s = .next { s with op := 5, arg := a, pc := [.q1] }) ∧
    (∀ a, exec (.pwr a) s = .next { s with op := 6, arg := a, pc := [.v1] }) ∧
    (∀ a, exec (.nop a) s = .next { s with op := 7, arg := a, pc := [] })

/-- The string bound by WRS reads, at every index, as the byte the host gave there, and past the listed bytes as its tail:
0 for a listed string (20_memory.md section 1, decision D6; log entry 6). -/
def Obligations.BoundStringReadsAsGiven : Prop :=
  ∀ (s t : State) (a : Byte) (str : StringArg), s.pc = [] → exec (.wrs a str) s = .next t →
    t.str.wf = true ∧
    (∀ i (h : i < str.bytes.length), t.str.read i = str.bytes[i]) ∧
    (∀ i, str.bytes.length ≤ i → str.tail = .zeros → t.str.read i = 0) ∧
    (∀ i b, str.bytes.length ≤ i → str.tail = .repeats b → t.str.read i = b) ∧
    (∀ i k, str.bytes.length ≤ i → str.tail = .free k → t.str.read i = Config.streamByte k i)

/-- The frame of acceptance: no instruction's acceptance touches a pin, a flag, an operand latch of a micro-procedure, a
trace, a parameter or an input; all but WRS leave `sidx` and every byte of the string space as they were
(40_gpio_line_ops.md section 3, 10_state.md section 4). Three points are the model's choice: that `exec` on a busy block
leaves the state as it is (log entry 14), that an LCD instruction byte is accepted as the WRI of it (log entry 8), and that
the string of an earlier WRS stays in the string space (log entry 15). -/
def Obligations.AcceptanceFrame : Prop :=
  ∀ (i : Instr) (s t : State), exec i s = .next t →
    (t.dOut = s.dOut ∧ t.d7oe = s.d7oe ∧ t.e = s.e ∧ t.rw = s.rw ∧ t.rs = s.rs ∧ t.pwr = s.pwr) ∧
    (t.bf = s.bf ∧ t.fault = s.fault) ∧
    (t.sel = s.sel ∧ t.byt = s.byt ∧ t.nib = s.nib ∧ t.ch = s.ch ∧ t.pollcnt = s.pollcnt) ∧
    (t.bus = s.bus ∧ t.ops = s.ops) ∧
    (t.pollLimit = s.pollLimit ∧ t.host = s.host ∧ t.lcd = s.lcd ∧ t.d7Draws = s.d7Draws ∧ t.resets = s.resets) ∧
    ((∀ a str, i ≠ .wrs a str) → t.sidx = s.sidx ∧ ∀ n, t.str.read n = s.str.read n)

/-! ## SN and WB -/

/-- SN: five rows, one write strobe of `nib[7:4]`, E low at the end, nothing else changed. -/
def Obligations.SendNibbleMakesOneWriteStrobe : Prop :=
  ∀ (s : State) (rest : List Label), s.pc = .sn .n1 :: rest → noReset 5 s.host = true →
    run 5 s = .next { s with
      dOut := highNibble s.nib, e := false, pc := rest, bus := s.bus ++ writeStrobe (highNibble s.nib),
      host := hostAfter 5 s.host }

/-- The nibbles of a byte: WB gives SN `byt`, then `byt` shifted left by 4 on 8 bits with the high bits lost; SN puts
bits 7:4 on the lines, so they carry `byt >> 4`, then `byt & 0xF`, for all 256 values. -/
def Obligations.NibbleOperandsSplitTheByte : Prop :=
  (∀ s : State, (performRow (.wb .w3) s).nib = s.byt ∧ (performRow (.wb .w4) s).nib.toNat = s.byt.toNat * 16 % 256) ∧
  (∀ s : State, (performRow (.sn .n1) s).dOut.toNat = s.nib.toNat / 16) ∧
  (∀ b : Byte, (highNibble b).toNat = b.toNat / 16 ∧ (highNibble (shiftedForLow b)).toNat = b.toNat % 16)

/-- The bits of SN's operand on the lines after N1: D7 = v[7], D6 = v[6], D5 = v[5], D4 = v[4] (20_memory.md
section 3, which marks it derived). -/
def Obligations.NibbleBitsLieOnTheirLines : Prop :=
  ∀ (s : State), s.d7oe = true →
    State.pinD7 (performRow (.sn .n1) s) = some (s.nib.getLsbD 7) ∧
    State.pinD6 (performRow (.sn .n1) s) = s.nib.getLsbD 6 ∧
    State.pinD5 (performRow (.sn .n1) s) = s.nib.getLsbD 5 ∧
    State.pinD4 (performRow (.sn .n1) s) = s.nib.getLsbD 4

/-- WB: fifteen rows, the 12 events of one byte write frame, high nibble first, and the operation event; RS stays at
`sel`, RW at 0, the data lines at the low nibble; nothing else changed; the two write strobes of the strobe view. -/
def Obligations.ByteWriterSendsHighThenLowNibble : Prop :=
  ∀ (s : State) (rest : List Label), s.pc = .wb .w1 :: rest → noReset 15 s.host = true →
    run 15 s = .next { s with
      dOut := lowNibble s.byt, e := false, rw := false, rs := s.sel, nib := shiftedForLow s.byt, pc := rest,
      bus := s.bus ++ byteFrame s.sel s.byt, ops := s.ops ++ [byteOpEvent s.sel s.byt],
      host := hostAfter 15 s.host } ∧
    strobesFrom s.lineView (byteFrame s.sel s.byt) = [.wr s.sel (highNibble s.byt), .wr s.sel (lowNibble s.byt)]

/-- WRI and WRC: the events that a run appends from acceptance to idle are, in the strobe view, exactly two write strobes,
`b >> 4` then `b & 0xF`, with RS 0 for WRI and 1 for WRC; D7 keeps its direction and the LCD is not read at any step, and RW
is write from W2 to the end (20_memory.md section 9 and 42_byte_writers.md section 3, which mark it derived). -/
def Obligations.ByteFrameIsTwoWriteStrobes : Prop :=
  ∀ (s : State) (b : Byte) (i : Instr) (sel : Level), (i = .wri b ∧ sel = false ∨ i = .wrc b ∧ sel = true) →
    s.pc = [] → noReset 16 s.host = true →
    ∃ (t u : State) (xs : List BusEvent), exec i s = .next t ∧ run 16 t = .next u ∧ u.pc = [] ∧ u.bus = s.bus ++ xs ∧
      strobesFrom s.lineView xs =
        [.wr sel (BitVec.ofNat 4 (b.toNat / 16)), .wr sel (BitVec.ofNat 4 (b.toNat % 16))] ∧
      ∀ m, m ≤ 16 → ∃ v, run m t = .next v ∧ v.d7oe = s.d7oe ∧ v.lcd = s.lcd ∧ v.d7Draws = s.d7Draws ∧
        (3 ≤ m → v.rw = false)

/-! ## PL -/

/-- One iteration of the poll: ten rows, one whole read frame of two strobes whatever the sample is; `bf` is the sample,
and the test that follows it is on the new count, ready first, then the limit (41_nibble_engine.md sections 2 and 4; the
limit and its place in the test are decision D19). -/
def Obligations.PollIterationIsOneWholeReadFrame : Prop :=
  (∀ (v : LineView) (b : Level), v.rw = true →
    strobesFrom v (readFrame b) = [.rd v.rs (some b), .rd v.rs none]) ∧
  ∀ (s : State) (rest : List Label), s.pc = .pl .p4 :: rest → s.d7oe = false → noReset 10 s.host = true →
    ∃ l : PlLabel,
      run 10 s = .next { s with
        e := false, bf := s.drawAt 0, pollcnt := s.pollcnt + 1, pc := .pl l :: rest,
        bus := s.bus ++ readFrame (s.drawAt 0), host := hostAfter 10 s.host,
        lcd := s.lcd.drop 1, d7Draws := s.d7Draws + (1 - s.lcd.length) } ∧
      (s.drawAt 0 = false → l = .p14) ∧
      (s.drawAt 0 = true → s.pollLimit = none → l = .p4) ∧
      (∀ L, s.drawAt 0 = true → s.pollLimit = some L → L ≤ s.pollcnt + 1 → l = .pf1) ∧
      (∀ L, s.drawAt 0 = true → s.pollLimit = some L → s.pollcnt + 1 < L → l = .p4)

/-- PL with `k` samples of 1 and then a 0, before any limit: `15 + 10k` rows, `5 + 9(k+1)` events, `BusyPoll(k+1)`; RW
back to write, D7 back to output, `bf` 0, RS 0, the data latch kept (41_nibble_engine.md section 2; the order of entry
and exit is decision D24). -/
def Obligations.PollReturnsAfterFirstReadySample : Prop :=
  ∀ (s : State) (rest : List Label) (k : Nat), s.pc = .pl .p1 :: rest →
    (∀ i, i < k → s.drawAt i = true) → s.drawAt k = false → (∀ L, s.pollLimit = some L → k < L) →
    noReset (15 + 10 * k) s.host = true →
    run (15 + 10 * k) s = .next { s with
      d7oe := true, e := false, rw := false, rs := false, bf := false, pc := rest, pollcnt := k + 1,
      bus := s.bus ++ pollEvents k, ops := s.ops ++ [.busyPoll (k + 1)], host := hostAfter (15 + 10 * k) s.host,
      lcd := s.lcd.drop (k + 1), d7Draws := s.d7Draws + (k + 1 - s.lcd.length) }

/-- With no limit a poll whose samples are all 1 never ends: after `k` of them, for every `k`, it is at P4 again, no fault
recorded, RW still read and D7 still an input, and at every step on the way `pc` holds a label of PL (41_nibble_engine.md
section 4; the order of the three entry events is decision D24). -/
def Obligations.BusyControllerBlocksPollForEver : Prop :=
  ∀ (s : State) (rest : List Label) (k : Nat), s.pc = .pl .p1 :: rest → s.pollLimit = none →
    (∀ i, i < k → s.drawAt i = true) → noReset (3 + 10 * k) s.host = true →
    run (3 + 10 * k) s = .next { s with
      d7oe := false, e := (if k = 0 then s.e else false), rw := true, rs := false,
      bf := (if k = 0 then s.bf else true), pc := .pl .p4 :: rest, pollcnt := k,
      bus := s.bus ++ pollHead ++ busyReads k, host := hostAfter (3 + 10 * k) s.host,
      lcd := s.lcd.drop k, d7Draws := s.d7Draws + (k - s.lcd.length) } ∧
    ∀ n, n ≤ 3 + 10 * k → ∃ (u : State) (l : PlLabel), run n s = .next u ∧ u.pc = .pl l :: rest ∧ u.fault = s.fault

/-- ControllerUnresponsive: with POLL_LIMIT `some L` and `L` samples of 1 the poll leaves by its fault exit: RW and D7
restored, `fault` 1, the event with the count `L`, `pc` empty whatever command was in progress, every other register
kept (60_exceptions.md sections 1 and 3, decision D19). -/
def Obligations.UnresponsiveControllerFaultsAtTheLimit : Prop :=
  ∀ (s : State) (rest : List Label) (L : Nat), s.pc = .pl .p1 :: rest → s.pollLimit = some L → 1 ≤ L →
    (∀ i, i < L → s.drawAt i = true) → noReset (6 + 10 * L) s.host = true →
    run (6 + 10 * L) s = .next { s with
      d7oe := true, e := false, rw := false, rs := false, bf := true, pc := [], pollcnt := L, fault := true,
      bus := s.bus ++ pollHead ++ busyReads L ++ pollTail,
      ops := s.ops ++ [.fault .controllerUnresponsive L], host := hostAfter (6 + 10 * L) s.host,
      lcd := s.lcd.drop L, d7Draws := s.d7Draws + (L - s.lcd.length) }

/-- Whenever PL ends, by return or by fault, RW is write, D7 an output, E low, and RS 0; and no row of PL changes the
output latch of the data lines. -/
def Obligations.PollRestoresTheBus : Prop :=
  (∀ (s t : State) (rest : List Label), Inv s → (s.pc = .pl .p15 :: rest ∨ s.pc = .pl .pf3 :: rest) →
    noReset 1 s.host = true → step s = .next t →
    t.rw = false ∧ t.d7oe = true ∧ t.e = false ∧ t.rs = false) ∧
  (∀ (l : PlLabel) (s : State), (performRow (.pl l) s).dOut = s.dOut)

/-- A poll ends once some sample of it is 0, the premise of 20_memory.md section 8 for one poll: with no reset, POLL reaches
idle with `bf` 0 and no new fault. -/
def Obligations.PollEndsWhenEventuallyReady : Prop :=
  ∀ (s : State) (a : Byte), s.pc = [] → PollReady s → NeverReset s →
    ∃ (t u : State) (n : Nat), exec (.poll a) s = .next t ∧ run n t = .next u ∧ u.pc = [] ∧ u.bf = false ∧
      u.fault = s.fault ∧ u.rw = false ∧ u.d7oe = true ∧ u.e = false ∧ u.rs = false ∧ u.dOut = s.dOut

/-! ## The commands, from acceptance to idle -/

/-- WRI: accepted, then sixteen rows put the byte on the bus as an instruction write, two strobes and no poll. -/
def Obligations.WriteInstructionCompletes : Prop :=
  ∀ (s : State) (b : Byte), s.pc = [] → noReset 16 s.host = true →
    ∃ t, exec (.wri b) s = .next t ∧
      run 16 t = .next { s with
        op := 1, arg := b, sel := false, byt := b, nib := shiftedForLow b, dOut := lowNibble b, e := false, rw := false,
        rs := false, pc := [], bus := s.bus ++ byteFrame false b, ops := s.ops ++ [.instrWrite b],
        host := hostAfter 16 s.host }

/-- WRC: accepted, then sixteen rows put the byte on the bus as a character write. -/
def Obligations.WriteCharacterCompletes : Prop :=
  ∀ (s : State) (b : Byte), s.pc = [] → noReset 16 s.host = true →
    ∃ t, exec (.wrc b) s = .next t ∧
      run 16 t = .next { s with
        op := 2, arg := b, sel := true, byt := b, nib := shiftedForLow b, dOut := lowNibble b, e := false, rw := false,
        rs := true, pc := [], bus := s.bus ++ byteFrame true b, ops := s.ops ++ [.charWrite b],
        host := hostAfter 16 s.host }

/-- The nine LCD instruction bytes: each is accepted as the WRI of its byte and then goes out as one instruction write
(30_encoding.md sections 4, 6 and 8; that a row of the table runs as a WRI is the model's choice, log entry 8). -/
def Obligations.LcdBytesCompleteAsInstructionWrites : Prop :=
  ∀ (s : State) (i : Instr) (b : Byte), encode i = .lcd b → s.pc = [] → noReset 16 s.host = true →
    ∃ t, exec i s = .next t ∧
      run 16 t = .next { s with
        op := 1, arg := b, sel := false, byt := b, nib := shiftedForLow b, dOut := lowNibble b, e := false, rw := false,
        rs := false, pc := [], bus := s.bus ++ byteFrame false b, ops := s.ops ++ [.instrWrite b],
        host := hostAfter 16 s.host }

/-- SETCUR on rows 1 and 2: the bytes 0x80 and 0xC0 go out as one instruction write (30_encoding.md section 3,
42_byte_writers.md section 2; the command code is decision D2). -/
def Obligations.SetCursorSendsTheRowBase : Prop :=
  ∀ (s : State) (row b : Byte), (row = 1 ∧ b = 0x80 ∨ row = 2 ∧ b = 0xC0) → s.pc = [] → noReset 16 s.host = true →
    ∃ t, exec (.setcur row) s = .next t ∧
      run 16 t = .next { s with
        op := 4, arg := row, sel := false, byt := b, nib := shiftedForLow b, dOut := lowNibble b, e := false,
        rw := false, rs := false, pc := [], bus := s.bus ++ byteFrame false b, ops := s.ops ++ [.instrWrite b],
        host := hostAfter 16 s.host }

/-- SETCUR on every other row ends after its one row with no event and no pin changed (30_encoding.md section 6,
decision D18). -/
def Obligations.SetCursorOtherRowsDoNothing : Prop :=
  ∀ (s : State) (row : Byte), row ≠ 1 → row ≠ 2 → s.pc = [] → noReset 1 s.host = true →
    ∃ t, exec (.setcur row) s = .next t ∧
      run 1 t = .next { s with op := 4, arg := row, pc := [], host := hostAfter 1 s.host }

/-- POLL: accepted, then one poll, to idle (41_nibble_engine.md section 5, decision D20). -/
def Obligations.PollCommandCompletes : Prop :=
  ∀ (s : State) (a : Byte) (k : Nat), s.pc = [] → (∀ i, i < k → s.drawAt i = true) → s.drawAt k = false →
    (∀ L, s.pollLimit = some L → k < L) → noReset (16 + 10 * k) s.host = true →
    ∃ t, exec (.poll a) s = .next t ∧
      run (16 + 10 * k) t = .next { s with
        op := 5, arg := a, d7oe := true, e := false, rw := false, rs := false, bf := false, pc := [], pollcnt := k + 1,
        bus := s.bus ++ pollEvents k, ops := s.ops ++ [.busyPoll (k + 1)], host := hostAfter (16 + 10 * k) s.host,
        lcd := s.lcd.drop (k + 1), d7Draws := s.d7Draws + (k + 1 - s.lcd.length) }

/-- PWR: the power line takes bit 0 of the operand, one event, whatever bits 7:1 are (40_gpio_line_ops.md section 2,
decisions D7 and D8). -/
def Obligations.PowerCommandSetsTheLine : Prop :=
  ∀ (s : State) (a : Byte), s.pc = [] → noReset 1 s.host = true →
    ∃ t, exec (.pwr a) s = .next t ∧
      run 1 t = .next { s with
        op := 6, arg := a, pwr := decide (a.toNat % 2 = 1), pc := [],
        bus := s.bus ++ [.lvl .pwr (decide (a.toNat % 2 = 1))], host := hostAfter 1 s.host }

/-- NOP: accepted by an idle block, which stays idle; only `op` and `arg` change (40_gpio_line_ops.md section 2,
decision D21). -/
def Obligations.NopOnlyLatches : Prop :=
  ∀ (s : State) (a : Byte), s.pc = [] → exec (.nop a) s = .next { s with op := 7, arg := a }

/-- WRS of the characters `cs`, none zero, each with the number of samples of 1 its poll meets, whether the LCD's answers
are scripted or free: a poll and a character write for each, in order, nothing for the terminator; the empty string touches
no pin. Whatever the string's listed bytes go on with after the first zero (42_byte_writers.md section 2, 20_memory.md
section 1; decision D17). The string stays in the string space afterwards by the model's choice (log entry 15). -/
def Obligations.WriteStringWritesUpToTheFirstZero : Prop :=
  ∀ (s : State) (a : Byte) (str : StringArg) (cs : List (Byte × Nat)), s.pc = [] →
    (∀ i (h : i < cs.length), (Str.ofArg str).read i = cs[i].1) → (∀ c ∈ cs, c.1 ≠ 0) →
    (Str.ofArg str).read cs.length = 0 → Answers s (cs.flatMap (fun c => busyThenReady c.2)) →
    (∀ L, s.pollLimit = some L → ∀ c ∈ cs, c.2 < L) →
    noReset (2 + (cs.map (fun c => 35 + 10 * c.2)).sum) s.host = true →
    ∃ t, exec (.wrs a str) s = .next t ∧
      run (2 + (cs.map (fun c => 35 + 10 * c.2)).sum) t =
        .next { afterDraws (cs.map (fun c => c.2 + 1)).sum (afterLastCharacter s cs.getLast?) with
          op := 3, arg := a, ch := 0, sidx := cs.length, str := Str.ofArg str, pc := [],
          bus := s.bus ++ cs.flatMap (fun c => pollEvents c.2 ++ byteFrame true c.1),
          ops := s.ops ++ cs.flatMap (fun c => [.busyPoll (c.2 + 1), .charWrite c.1]),
          host := hostAfter (2 + (cs.map (fun c => 35 + 10 * c.2)).sum) s.host }

/-- A string with no zero byte makes WRS run for ever, whatever its polls meet below a limit: from S1, after every number
of characters that are not 0, one for each entry of `ks`, it is at S1 again, about to fetch the next, and at every step on
the way `pc` holds a label and no fault has been recorded (60_exceptions.md section 1, 42_byte_writers.md section 2). -/
def Obligations.UnterminatedStringNeverEnds : Prop :=
  ∀ (s : State) (ks : List Nat), s.pc = [.wrs .s1] → (∀ i, i < ks.length → s.str.read (s.sidx + i) ≠ 0) →
    Answers s (ks.flatMap busyThenReady) → (∀ L, s.pollLimit = some L → ∀ k ∈ ks, k < L) →
    noReset (ks.map (fun k => 35 + 10 * k)).sum s.host = true →
    (∃ u, run (ks.map (fun k => 35 + 10 * k)).sum s = .next u ∧ u.pc = [.wrs .s1] ∧ u.sidx = s.sidx + ks.length) ∧
    ∀ n, n ≤ (ks.map (fun k => 35 + 10 * k)).sum → ∃ u, run n s = .next u ∧ u.pc ≠ [] ∧ u.fault = s.fault

/-- INIT: the sequence of its table in order, whatever the five polls meet, scripted or free: the bus trace, the operation
trace and the end state of every register (43_initialize.md sections 1 and 3). The spec's own decisions in it: RS and RW
first (D12), the nibble 0x2 (D10), the byte 0x28 (D11), no wait after the mode nibble (D13), the order of a poll's entry
and exit (D24). -/
def Obligations.InitRunsItsSequence : Prop :=
  ∀ (s : State) (a : Byte) (k1 k2 k3 k4 k5 : Nat), s.pc = [] →
    Answers s ([k1, k2, k3, k4, k5].flatMap busyThenReady) →
    (∀ L, s.pollLimit = some L → k1 < L ∧ k2 < L ∧ k3 < L ∧ k4 < L ∧ k5 < L) →
    noReset (190 + 10 * (k1 + k2 + k3 + k4 + k5)) s.host = true →
    ∃ t, exec (.init a) s = .next t ∧
      run (190 + 10 * (k1 + k2 + k3 + k4 + k5)) t = .next { afterDraws (k1 + k2 + k3 + k4 + k5 + 5) s with
        op := 0, arg := a, sel := false, byt := 0x0C, nib := 0xC0, dOut := 0xC, d7oe := true, e := false, rw := false,
        rs := false, bf := false, pc := [], pollcnt := k5 + 1, bus := s.bus ++ initEvents k1 k2 k3 k4 k5,
        ops := s.ops ++ initOpEvents k1 k2 k3 k4 k5,
        host := hostAfter (190 + 10 * (k1 + k2 + k3 + k4 + k5)) s.host }

/-- The write strobes among the events that a good run of INIT appends, in order and whatever the polls meet: 0x3 three
times, 0x2, then the pairs of 0x28, 0x08, 0x01, 0x06, 0x0C, all with RS 0; every read strobe has RS 0 as well
(43_initialize.md section 3, which marks it derived; the nibble 0x2 and the byte 0x28 are decisions D10 and D11). -/
def Obligations.InitMakesFourteenWriteStrobes : Prop :=
  ∀ (s : State) (a : Byte) (k1 k2 k3 k4 k5 : Nat), s.pc = [] →
    Answers s ([k1, k2, k3, k4, k5].flatMap busyThenReady) →
    (∀ L, s.pollLimit = some L → k1 < L ∧ k2 < L ∧ k3 < L ∧ k4 < L ∧ k5 < L) →
    noReset (190 + 10 * (k1 + k2 + k3 + k4 + k5)) s.host = true →
    ∃ (t u : State) (xs : List BusEvent), exec (.init a) s = .next t ∧
      run (190 + 10 * (k1 + k2 + k3 + k4 + k5)) t = .next u ∧ u.pc = [] ∧ u.bus = s.bus ++ xs ∧
      (strobesFrom s.lineView xs).filter isWrite =
        [.wr false 0x3, .wr false 0x3, .wr false 0x3, .wr false 0x2, .wr false 0x2, .wr false 0x8, .wr false 0x0,
         .wr false 0x8, .wr false 0x0, .wr false 0x1, .wr false 0x0, .wr false 0x6, .wr false 0x0, .wr false 0xC] ∧
      ∀ (r : Level) (b : Option Level), .rd r b ∈ strobesFrom s.lineView xs → r = false

/-- How many events WRI, WRC, POLL and a good run of INIT append to the bus trace from acceptance to idle, and the least
time these take (43_initialize.md section 3 and 70_reset_and_hazards.md section 4, which mark them derived). -/
def Obligations.FrameSizesAndLeastTimes : Prop :=
  (∀ (s : State) (b : Byte) (i : Instr), (i = .wri b ∨ i = .wrc b) → s.pc = [] → noReset 16 s.host = true →
    ∃ (t u : State) (xs : List BusEvent), exec i s = .next t ∧ run 16 t = .next u ∧ u.pc = [] ∧ u.bus = s.bus ++ xs ∧
      xs.length = 12 ∧ elapsed xs = 4) ∧
  (∀ (s : State) (a : Byte) (k : Nat), s.pc = [] → Answers s (busyThenReady k) → (∀ L, s.pollLimit = some L → k < L) →
    noReset (16 + 10 * k) s.host = true →
    ∃ (t u : State) (xs : List BusEvent), exec (.poll a) s = .next t ∧ run (16 + 10 * k) t = .next u ∧ u.pc = [] ∧
      u.bus = s.bus ++ xs ∧ xs.length = 5 + 9 * (k + 1) ∧ elapsed xs = 4 * (k + 1)) ∧
  (∀ (s : State) (a : Byte) (k1 k2 k3 k4 k5 : Nat), s.pc = [] →
    Answers s ([k1, k2, k3, k4, k5].flatMap busyThenReady) →
    (∀ L, s.pollLimit = some L → k1 < L ∧ k2 < L ∧ k3 < L ∧ k4 < L ∧ k5 < L) →
    noReset (190 + 10 * (k1 + k2 + k3 + k4 + k5)) s.host = true →
    ∃ (t u : State) (xs : List BusEvent), exec (.init a) s = .next t ∧
      run (190 + 10 * (k1 + k2 + k3 + k4 + k5)) t = .next u ∧ u.pc = [] ∧ u.bus = s.bus ++ xs ∧
      xs.length = 111 + 9 * (k1 + k2 + k3 + k4 + k5 + 5) ∧ elapsed xs = 40318 + 4 * (k1 + k2 + k3 + k4 + k5 + 5))

/-- Every command that an idle block is offered has a good run when every poll on the way meets a sample of 0, the host
asserts no reset, no fault stands, and a WRS's string ends: the premises of 20_memory.md section 8 and 60_exceptions.md
section 1, the run of 20_memory.md section 9. -/
def Obligations.CommandsHaveGoodRunsWhenEventuallyReady : Prop :=
  ∀ (s : State) (o : Offer), s.pc = [] → s.offered = some o → NeverReset s → s.fault = false → EventuallyReady s →
    (o.word.opField = 3 → Terminated o.str) → ∃ n u, GoodRun o s n u

/-- A list of commands that the host keeps on the port one after another has a good run, under the same premises: the block
runs them in order, none is lost and the port is empty at the end (20_memory.md sections 7 to 9; that the host's inputs
are a list in State is log entry 1; a list's run may hold idle steps, log entry 16). -/
def Obligations.CommandListsHaveGoodRunsWhenEventuallyReady : Prop :=
  ∀ (s : State) (os : List Offer), s.pc = [] → s.host = os.map .keep → s.fault = false → EventuallyReady s →
    (∀ o ∈ os, o.word.opField = 3 → Terminated o.str) → ∃ n u, GoodListRun os s n u ∧ u.pc = [] ∧ u.host = []

/-! ## Invariants and whole-machine rules -/

/-- The reset state meets the invariant. -/
def Obligations.ResetMeetsInvariant : Prop := Inv State.reset

/-- Every step keeps the invariant: the shape of `pc`, the levels of E, RW and D7's direction at every label, RS during a
poll, `bf` at the poll's exits, the fault only with a limit, the string space canonical (10_state.md sections 2, 4
and 6, 41_nibble_engine.md section 4). -/
def Obligations.StepKeepsInvariant : Prop :=
  ∀ s t : State, Inv s → step s = .next t → Inv t

/-- `pc` never holds more than three labels (10_state.md section 4, decision D9). -/
def Obligations.StackIsAtMostThreeDeep : Prop :=
  ∀ s : State, Inv s → s.pc.length ≤ 3

/-- At idle the bus is in write direction with the strobe low, and the block never drives D7 while RW is read, nor reads
the data register (10_state.md section 6 and 30_encoding.md section 6). -/
def Obligations.BusAtRestWhenIdleAndNoContentionOnD7 : Prop :=
  ∀ s : State, Inv s →
    (s.pc = [] → s.e = false ∧ s.rw = false ∧ s.d7oe = true) ∧ (s.rw = true → s.d7oe = false) ∧
    (s.rw = true → s.e = true → s.rs = false)

/-- RW is read only inside the poll, and it is written only at P3 (to 1), P14 and PF1 (to 0), W2 and I1 (to 0). -/
def Obligations.DirectionIsReadOnlyInsideThePoll : Prop :=
  (∀ s : State, Inv s → s.rw = true → ∃ (l : PlLabel) (rest : List Label), s.pc = .pl l :: rest) ∧
  (∀ (l : Label) (s : State), l ∉ [.pl .p3, .pl .p14, .pl .pf1, .wb .w2, .init .i1] → (performRow l s).rw = s.rw) ∧
  (∀ (l : Label) (s : State), l ∈ [.pl .p14, .pl .pf1, .wb .w2, .init .i1] → (performRow l s).rw = false) ∧
  (∀ s : State, (performRow (.pl .p3) s).rw = true)

/-- D7 is an input only inside the poll, between P1 and P15 (or PF2); at idle it is an output; it is written only at P1,
P15 and PF2. -/
def Obligations.D7IsInputOnlyInsideThePoll : Prop :=
  (∀ s : State, Inv s → s.d7oe = false →
    ∃ (l : PlLabel) (rest : List Label), s.pc = .pl l :: rest ∧ l ≠ .p1 ∧ l ≠ .pf3) ∧
  (∀ s : State, Inv s → s.pc = [] → s.d7oe = true) ∧
  (∀ (l : Label) (s : State), l ∉ [.pl .p1, .pl .p15, .pl .pf2] → (performRow l s).d7oe = s.d7oe) ∧
  (∀ s : State, (performRow (.pl .p1) s).d7oe = false ∧ (performRow (.pl .p15) s).d7oe = true ∧
    (performRow (.pl .pf2) s).d7oe = true)

/-- E is high only between N2 and N4, P4 and P7, P9 and P11, and it is written only at those labels. -/
def Obligations.EnableIsHighOnlyInsideAStrobe : Prop :=
  (∀ s : State, Inv s → s.e = true → ∃ rest : List Label,
    s.pc = .sn .n3 :: rest ∨ s.pc = .sn .n4 :: rest ∨ s.pc = .pl .p5 :: rest ∨ s.pc = .pl .p6 :: rest ∨
      s.pc = .pl .p7 :: rest ∨ s.pc = .pl .p10 :: rest ∨ s.pc = .pl .p11 :: rest) ∧
  (∀ (l : Label) (s : State), l ∉ [.sn .n2, .sn .n4, .pl .p4, .pl .p7, .pl .p9, .pl .p11] →
    (performRow l s).e = s.e) ∧
  (∀ (l : Label) (s : State), l ∈ [.sn .n2, .pl .p4, .pl .p9] → (performRow l s).e = true) ∧
  (∀ (l : Label) (s : State), l ∈ [.sn .n4, .pl .p7, .pl .p11] → (performRow l s).e = false)

/-- The operands of WB are written only by its callers, in the micro-action of the call, WB does not change them, and of the
rows that do not write them only W1, W3, W4 and W5 read them. -/
def Obligations.WriterOperandsAreWrittenByCallersOnly : Prop :=
  (∀ (l : Label) (s : State),
    l ∉ [.a1, .b1, .wrs .s4, .c1, .init .i11, .init .i13, .init .i15, .init .i17, .init .i19] →
    (performRow l s).sel = s.sel ∧ (performRow l s).byt = s.byt) ∧
  (∀ (l : Label) (s : State), l ∈ [.a1, .b1, .wrs .s4, .init .i11, .init .i13, .init .i15, .init .i17, .init .i19] →
    ∃ rest, (performRow l s).pc = .wb .w1 :: rest) ∧
  (∀ s : State, (performRow .c1 s).pc = .wb .w1 :: s.pc.tail ∨
    (performRow .c1 s).sel = s.sel ∧ (performRow .c1 s).byt = s.byt) ∧
  (∀ (l : Label) (s : State) (v : Level) (b : Byte),
    l ∉ [.a1, .b1, .wrs .s4, .c1, .init .i11, .init .i13, .init .i15, .init .i17, .init .i19,
      .wb .w1, .wb .w3, .wb .w4, .wb .w5] →
    performRow l { s with sel := v, byt := b } = { performRow l s with sel := v, byt := b })

/-- SN's operand is written only by its callers, in the micro-action of the call; only `nib[7:4]` is read: at a label that
does not write it, another `nib[3:0]` makes no difference but itself; and no row reads any of it but N1 and, for INIT's
record of the nibble it sent, I4, I6, I8 and I10. -/
def Obligations.SenderOperandLowBitsAreIgnored : Prop :=
  (∀ (l : Label) (s : State), l ∉ [.wb .w3, .wb .w4, .init .i3, .init .i5, .init .i7, .init .i9] →
    (performRow l s).nib = s.nib) ∧
  (∀ (l : Label) (s : State), l ∈ [.wb .w3, .wb .w4, .init .i3, .init .i5, .init .i7, .init .i9] →
    ∃ rest, (performRow l s).pc = .sn .n1 :: rest) ∧
  (∀ (l : Label) (s : State) (v : Byte), l ∉ [.wb .w3, .wb .w4, .init .i3, .init .i5, .init .i7, .init .i9] →
    highNibble v = highNibble s.nib → performRow l { s with nib := v } = { performRow l s with nib := v }) ∧
  (∀ (l : Label) (s : State) (v : Byte),
    l ∉ [.sn .n1, .init .i4, .init .i6, .init .i8, .init .i10, .wb .w3, .wb .w4, .init .i3, .init .i5, .init .i7,
      .init .i9] →
    performRow l { s with nib := v } = { performRow l s with nib := v })

/-- `op` and `arg` are held from acceptance on, and no row reads `arg` but A1, B1, C1 and V1, of which V1 reads bit 0 only;
no row reads `op` (10_state.md section 4, 30_encoding.md section 5; decisions D2 and D22). -/
def Obligations.CommandLatchesAreHeldAndReadOnlyByTheirRows : Prop :=
  (∀ (l : Label) (s : State), (performRow l s).op = s.op ∧ (performRow l s).arg = s.arg) ∧
  (∀ (l : Label) (s : State) (v : Byte), l ∉ [.a1, .b1, .c1, .v1] →
    performRow l { s with arg := v } = { performRow l s with arg := v }) ∧
  (∀ (s : State) (v : Byte), v.getLsbD 0 = s.arg.getLsbD 0 →
    performRow .v1 { s with arg := v } = { performRow .v1 s with arg := v }) ∧
  (∀ (l : Label) (s : State) (o : OpCode), performRow l { s with op := o } = { performRow l s with op := o })

/-- The LCD agent is read at P6 only: at every other label its answers change nothing and none is used up
(20_memory.md section 8, decision D25). -/
def Obligations.LcdIsReadAtP6Only : Prop :=
  ∀ (l : Label) (s : State) (lcd : List Level) (n : Nat), l ≠ .pl .p6 →
    performRow l { s with lcd := lcd, d7Draws := n } = { performRow l s with lcd := lcd, d7Draws := n }

/-- `fault` is sticky: without reset no step clears it, and only row PF3 sets it (10_state.md section 4,
60_exceptions.md section 3, decision D19). -/
def Obligations.FaultIsStickyAndSetOnlyAtPf3 : Prop :=
  ∀ s t : State, (∀ rest, s.host ≠ .reset :: rest) → step s = .next t →
    (s.fault = true → t.fault = true) ∧
    (s.fault = false → t.fault = true → ∃ rest, s.pc = .pl .pf3 :: rest)
end

