-- ==== Sys2Proof/Laws/Decode.lean ====
section
/-! SUPPORT. The fields of a command word (R81). -/

namespace Sys2Proof

/-- The value of a command word made of two fields. -/
theorem CmdWord.make_toNat (op : OpCode) (arg : Byte) :
    (CmdWord.make op arg).toNat = op.toNat * 256 + arg.toNat := by
  have h : (CmdWord.make op arg).toNat = op.toNat <<< 8 ||| arg.toNat := BitVec.toNat_append op arg
  rw [h, ← Nat.shiftLeft_add_eq_or_of_lt arg.isLt, Nat.shiftLeft_eq]

/-- The value of field `op`. -/
theorem CmdWord.opField_toNat (w : CmdWord) : w.opField.toNat = w.toNat / 256 := by
  have h : w.toNat < 2048 := w.isLt
  simp only [CmdWord.opField, BitVec.extractLsb'_toNat, Nat.shiftRight_eq_div_pow]
  omega

/-- The value of field `arg`. -/
theorem CmdWord.argField_toNat (w : CmdWord) : w.argField.toNat = w.toNat % 256 := by
  simp only [CmdWord.argField, BitVec.extractLsb'_toNat, Nat.shiftRight_zero]

/-- Field `op` of a word made of two fields. -/
@[simp] theorem CmdWord.make_opField (op : OpCode) (arg : Byte) : (CmdWord.make op arg).opField = op := by
  apply BitVec.eq_of_toNat_eq
  have h : arg.toNat < 256 := arg.isLt
  rw [CmdWord.opField_toNat, CmdWord.make_toNat]
  omega

/-- Field `arg` of a word made of two fields. -/
@[simp] theorem CmdWord.make_argField (op : OpCode) (arg : Byte) : (CmdWord.make op arg).argField = arg := by
  apply BitVec.eq_of_toNat_eq
  have h : arg.toNat < 256 := arg.isLt
  rw [CmdWord.argField_toNat, CmdWord.make_toNat]
  omega

/-- A word is made of its two fields: no bit is left over. -/
theorem CmdWord.make_fields (w : CmdWord) : CmdWord.make w.opField w.argField = w := by
  apply BitVec.eq_of_toNat_eq
  rw [CmdWord.make_toNat, CmdWord.opField_toNat, CmdWord.argField_toNat]
  omega

end Sys2Proof
end

