-- ==== Sys2Proof/Laws/Observe.lean ====
section
/-! SUPPORT. What the observations of a bus trace do on a trace put together from parts (R74, R271). -/

namespace Sys2Proof.Machine

/-- The least times of two parts add up. -/
@[simp] theorem elapsed_append (xs ys : List BusEvent) : elapsed (xs ++ ys) = elapsed xs + elapsed ys := by
  induction xs with
  | nil => exact (Nat.zero_add _).symm
  | cons x rest ih => cases x <;> simp [elapsed, ih, Nat.add_assoc]

/-- The strobes of two parts: those of the first, then those of the second from the lines as the first leaves them. -/
theorem strobesFrom_append (xs ys : List BusEvent) :
    ∀ v, strobesFrom v (xs ++ ys) = strobesFrom v xs ++ strobesFrom (xs.foldl LineView.after v) ys := by
  induction xs with
  | nil => intro v; rfl
  | cons x rest ih => intro v; simp [strobesFrom, ih]

end Sys2Proof.Machine
end

