-- ==== Sys2Proof/Laws/State.lean ====
section
/-! SUPPORT. What each update of State leaves in each field, one lemma per field per update, true by rfl. -/

namespace Sys2Proof.Machine

/-! ### State.emit s x -/

@[simp] theorem State.emit_dOut (s : State) (x : BusEvent) : (State.emit s x).dOut = s.dOut := rfl
@[simp] theorem State.emit_d7oe (s : State) (x : BusEvent) : (State.emit s x).d7oe = s.d7oe := rfl
@[simp] theorem State.emit_e (s : State) (x : BusEvent) : (State.emit s x).e = s.e := rfl
@[simp] theorem State.emit_rw (s : State) (x : BusEvent) : (State.emit s x).rw = s.rw := rfl
@[simp] theorem State.emit_rs (s : State) (x : BusEvent) : (State.emit s x).rs = s.rs := rfl
@[simp] theorem State.emit_pwr (s : State) (x : BusEvent) : (State.emit s x).pwr = s.pwr := rfl
@[simp] theorem State.emit_bf (s : State) (x : BusEvent) : (State.emit s x).bf = s.bf := rfl
@[simp] theorem State.emit_pc (s : State) (x : BusEvent) : (State.emit s x).pc = s.pc := rfl
@[simp] theorem State.emit_op (s : State) (x : BusEvent) : (State.emit s x).op = s.op := rfl
@[simp] theorem State.emit_arg (s : State) (x : BusEvent) : (State.emit s x).arg = s.arg := rfl
@[simp] theorem State.emit_sel (s : State) (x : BusEvent) : (State.emit s x).sel = s.sel := rfl
@[simp] theorem State.emit_byt (s : State) (x : BusEvent) : (State.emit s x).byt = s.byt := rfl
@[simp] theorem State.emit_nib (s : State) (x : BusEvent) : (State.emit s x).nib = s.nib := rfl
@[simp] theorem State.emit_ch (s : State) (x : BusEvent) : (State.emit s x).ch = s.ch := rfl
@[simp] theorem State.emit_sidx (s : State) (x : BusEvent) : (State.emit s x).sidx = s.sidx := rfl
@[simp] theorem State.emit_pollcnt (s : State) (x : BusEvent) : (State.emit s x).pollcnt = s.pollcnt := rfl
@[simp] theorem State.emit_fault (s : State) (x : BusEvent) : (State.emit s x).fault = s.fault := rfl
@[simp] theorem State.emit_str (s : State) (x : BusEvent) : (State.emit s x).str = s.str := rfl
@[simp] theorem State.emit_bus (s : State) (x : BusEvent) : (State.emit s x).bus = s.bus ++ [x] := rfl
@[simp] theorem State.emit_ops (s : State) (x : BusEvent) : (State.emit s x).ops = s.ops := rfl
@[simp] theorem State.emit_pollLimit (s : State) (x : BusEvent) : (State.emit s x).pollLimit = s.pollLimit := rfl
@[simp] theorem State.emit_host (s : State) (x : BusEvent) : (State.emit s x).host = s.host := rfl
@[simp] theorem State.emit_lcd (s : State) (x : BusEvent) : (State.emit s x).lcd = s.lcd := rfl
@[simp] theorem State.emit_d7Draws (s : State) (x : BusEvent) : (State.emit s x).d7Draws = s.d7Draws := rfl
@[simp] theorem State.emit_resets (s : State) (x : BusEvent) : (State.emit s x).resets = s.resets := rfl

/-! ### State.emitOp s x -/

@[simp] theorem State.emitOp_dOut (s : State) (x : OpEvent) : (State.emitOp s x).dOut = s.dOut := rfl
@[simp] theorem State.emitOp_d7oe (s : State) (x : OpEvent) : (State.emitOp s x).d7oe = s.d7oe := rfl
@[simp] theorem State.emitOp_e (s : State) (x : OpEvent) : (State.emitOp s x).e = s.e := rfl
@[simp] theorem State.emitOp_rw (s : State) (x : OpEvent) : (State.emitOp s x).rw = s.rw := rfl
@[simp] theorem State.emitOp_rs (s : State) (x : OpEvent) : (State.emitOp s x).rs = s.rs := rfl
@[simp] theorem State.emitOp_pwr (s : State) (x : OpEvent) : (State.emitOp s x).pwr = s.pwr := rfl
@[simp] theorem State.emitOp_bf (s : State) (x : OpEvent) : (State.emitOp s x).bf = s.bf := rfl
@[simp] theorem State.emitOp_pc (s : State) (x : OpEvent) : (State.emitOp s x).pc = s.pc := rfl
@[simp] theorem State.emitOp_op (s : State) (x : OpEvent) : (State.emitOp s x).op = s.op := rfl
@[simp] theorem State.emitOp_arg (s : State) (x : OpEvent) : (State.emitOp s x).arg = s.arg := rfl
@[simp] theorem State.emitOp_sel (s : State) (x : OpEvent) : (State.emitOp s x).sel = s.sel := rfl
@[simp] theorem State.emitOp_byt (s : State) (x : OpEvent) : (State.emitOp s x).byt = s.byt := rfl
@[simp] theorem State.emitOp_nib (s : State) (x : OpEvent) : (State.emitOp s x).nib = s.nib := rfl
@[simp] theorem State.emitOp_ch (s : State) (x : OpEvent) : (State.emitOp s x).ch = s.ch := rfl
@[simp] theorem State.emitOp_sidx (s : State) (x : OpEvent) : (State.emitOp s x).sidx = s.sidx := rfl
@[simp] theorem State.emitOp_pollcnt (s : State) (x : OpEvent) : (State.emitOp s x).pollcnt = s.pollcnt := rfl
@[simp] theorem State.emitOp_fault (s : State) (x : OpEvent) : (State.emitOp s x).fault = s.fault := rfl
@[simp] theorem State.emitOp_str (s : State) (x : OpEvent) : (State.emitOp s x).str = s.str := rfl
@[simp] theorem State.emitOp_bus (s : State) (x : OpEvent) : (State.emitOp s x).bus = s.bus := rfl
@[simp] theorem State.emitOp_ops (s : State) (x : OpEvent) : (State.emitOp s x).ops = s.ops ++ [x] := rfl
@[simp] theorem State.emitOp_pollLimit (s : State) (x : OpEvent) : (State.emitOp s x).pollLimit = s.pollLimit := rfl
@[simp] theorem State.emitOp_host (s : State) (x : OpEvent) : (State.emitOp s x).host = s.host := rfl
@[simp] theorem State.emitOp_lcd (s : State) (x : OpEvent) : (State.emitOp s x).lcd = s.lcd := rfl
@[simp] theorem State.emitOp_d7Draws (s : State) (x : OpEvent) : (State.emitOp s x).d7Draws = s.d7Draws := rfl
@[simp] theorem State.emitOp_resets (s : State) (x : OpEvent) : (State.emitOp s x).resets = s.resets := rfl

/-! ### State.setDir s d -/

@[simp] theorem State.setDir_dOut (s : State) (d : Dir) : (State.setDir s d).dOut = s.dOut := rfl
@[simp] theorem State.setDir_d7oe (s : State) (d : Dir) : (State.setDir s d).d7oe = decide (d = .output) := rfl
@[simp] theorem State.setDir_e (s : State) (d : Dir) : (State.setDir s d).e = s.e := rfl
@[simp] theorem State.setDir_rw (s : State) (d : Dir) : (State.setDir s d).rw = s.rw := rfl
@[simp] theorem State.setDir_rs (s : State) (d : Dir) : (State.setDir s d).rs = s.rs := rfl
@[simp] theorem State.setDir_pwr (s : State) (d : Dir) : (State.setDir s d).pwr = s.pwr := rfl
@[simp] theorem State.setDir_bf (s : State) (d : Dir) : (State.setDir s d).bf = s.bf := rfl
@[simp] theorem State.setDir_pc (s : State) (d : Dir) : (State.setDir s d).pc = s.pc := rfl
@[simp] theorem State.setDir_op (s : State) (d : Dir) : (State.setDir s d).op = s.op := rfl
@[simp] theorem State.setDir_arg (s : State) (d : Dir) : (State.setDir s d).arg = s.arg := rfl
@[simp] theorem State.setDir_sel (s : State) (d : Dir) : (State.setDir s d).sel = s.sel := rfl
@[simp] theorem State.setDir_byt (s : State) (d : Dir) : (State.setDir s d).byt = s.byt := rfl
@[simp] theorem State.setDir_nib (s : State) (d : Dir) : (State.setDir s d).nib = s.nib := rfl
@[simp] theorem State.setDir_ch (s : State) (d : Dir) : (State.setDir s d).ch = s.ch := rfl
@[simp] theorem State.setDir_sidx (s : State) (d : Dir) : (State.setDir s d).sidx = s.sidx := rfl
@[simp] theorem State.setDir_pollcnt (s : State) (d : Dir) : (State.setDir s d).pollcnt = s.pollcnt := rfl
@[simp] theorem State.setDir_fault (s : State) (d : Dir) : (State.setDir s d).fault = s.fault := rfl
@[simp] theorem State.setDir_str (s : State) (d : Dir) : (State.setDir s d).str = s.str := rfl
@[simp] theorem State.setDir_bus (s : State) (d : Dir) : (State.setDir s d).bus = s.bus ++ [.dir d] := rfl
@[simp] theorem State.setDir_ops (s : State) (d : Dir) : (State.setDir s d).ops = s.ops := rfl
@[simp] theorem State.setDir_pollLimit (s : State) (d : Dir) : (State.setDir s d).pollLimit = s.pollLimit := rfl
@[simp] theorem State.setDir_host (s : State) (d : Dir) : (State.setDir s d).host = s.host := rfl
@[simp] theorem State.setDir_lcd (s : State) (d : Dir) : (State.setDir s d).lcd = s.lcd := rfl
@[simp] theorem State.setDir_d7Draws (s : State) (d : Dir) : (State.setDir s d).d7Draws = s.d7Draws := rfl
@[simp] theorem State.setDir_resets (s : State) (d : Dir) : (State.setDir s d).resets = s.resets := rfl

/-! ### State.setLevel s .e v -/

@[simp] theorem State.setE_dOut (s : State) (v : Level) : (State.setLevel s .e v).dOut = s.dOut := rfl
@[simp] theorem State.setE_d7oe (s : State) (v : Level) : (State.setLevel s .e v).d7oe = s.d7oe := rfl
@[simp] theorem State.setE_e (s : State) (v : Level) : (State.setLevel s .e v).e = v := rfl
@[simp] theorem State.setE_rw (s : State) (v : Level) : (State.setLevel s .e v).rw = s.rw := rfl
@[simp] theorem State.setE_rs (s : State) (v : Level) : (State.setLevel s .e v).rs = s.rs := rfl
@[simp] theorem State.setE_pwr (s : State) (v : Level) : (State.setLevel s .e v).pwr = s.pwr := rfl
@[simp] theorem State.setE_bf (s : State) (v : Level) : (State.setLevel s .e v).bf = s.bf := rfl
@[simp] theorem State.setE_pc (s : State) (v : Level) : (State.setLevel s .e v).pc = s.pc := rfl
@[simp] theorem State.setE_op (s : State) (v : Level) : (State.setLevel s .e v).op = s.op := rfl
@[simp] theorem State.setE_arg (s : State) (v : Level) : (State.setLevel s .e v).arg = s.arg := rfl
@[simp] theorem State.setE_sel (s : State) (v : Level) : (State.setLevel s .e v).sel = s.sel := rfl
@[simp] theorem State.setE_byt (s : State) (v : Level) : (State.setLevel s .e v).byt = s.byt := rfl
@[simp] theorem State.setE_nib (s : State) (v : Level) : (State.setLevel s .e v).nib = s.nib := rfl
@[simp] theorem State.setE_ch (s : State) (v : Level) : (State.setLevel s .e v).ch = s.ch := rfl
@[simp] theorem State.setE_sidx (s : State) (v : Level) : (State.setLevel s .e v).sidx = s.sidx := rfl
@[simp] theorem State.setE_pollcnt (s : State) (v : Level) : (State.setLevel s .e v).pollcnt = s.pollcnt := rfl
@[simp] theorem State.setE_fault (s : State) (v : Level) : (State.setLevel s .e v).fault = s.fault := rfl
@[simp] theorem State.setE_str (s : State) (v : Level) : (State.setLevel s .e v).str = s.str := rfl
@[simp] theorem State.setE_bus (s : State) (v : Level) : (State.setLevel s .e v).bus = s.bus ++ [.lvl .e v] := rfl
@[simp] theorem State.setE_ops (s : State) (v : Level) : (State.setLevel s .e v).ops = s.ops := rfl
@[simp] theorem State.setE_pollLimit (s : State) (v : Level) : (State.setLevel s .e v).pollLimit = s.pollLimit := rfl
@[simp] theorem State.setE_host (s : State) (v : Level) : (State.setLevel s .e v).host = s.host := rfl
@[simp] theorem State.setE_lcd (s : State) (v : Level) : (State.setLevel s .e v).lcd = s.lcd := rfl
@[simp] theorem State.setE_d7Draws (s : State) (v : Level) : (State.setLevel s .e v).d7Draws = s.d7Draws := rfl
@[simp] theorem State.setE_resets (s : State) (v : Level) : (State.setLevel s .e v).resets = s.resets := rfl

/-! ### State.setLevel s .rw v -/

@[simp] theorem State.setRw_dOut (s : State) (v : Level) : (State.setLevel s .rw v).dOut = s.dOut := rfl
@[simp] theorem State.setRw_d7oe (s : State) (v : Level) : (State.setLevel s .rw v).d7oe = s.d7oe := rfl
@[simp] theorem State.setRw_e (s : State) (v : Level) : (State.setLevel s .rw v).e = s.e := rfl
@[simp] theorem State.setRw_rw (s : State) (v : Level) : (State.setLevel s .rw v).rw = v := rfl
@[simp] theorem State.setRw_rs (s : State) (v : Level) : (State.setLevel s .rw v).rs = s.rs := rfl
@[simp] theorem State.setRw_pwr (s : State) (v : Level) : (State.setLevel s .rw v).pwr = s.pwr := rfl
@[simp] theorem State.setRw_bf (s : State) (v : Level) : (State.setLevel s .rw v).bf = s.bf := rfl
@[simp] theorem State.setRw_pc (s : State) (v : Level) : (State.setLevel s .rw v).pc = s.pc := rfl
@[simp] theorem State.setRw_op (s : State) (v : Level) : (State.setLevel s .rw v).op = s.op := rfl
@[simp] theorem State.setRw_arg (s : State) (v : Level) : (State.setLevel s .rw v).arg = s.arg := rfl
@[simp] theorem State.setRw_sel (s : State) (v : Level) : (State.setLevel s .rw v).sel = s.sel := rfl
@[simp] theorem State.setRw_byt (s : State) (v : Level) : (State.setLevel s .rw v).byt = s.byt := rfl
@[simp] theorem State.setRw_nib (s : State) (v : Level) : (State.setLevel s .rw v).nib = s.nib := rfl
@[simp] theorem State.setRw_ch (s : State) (v : Level) : (State.setLevel s .rw v).ch = s.ch := rfl
@[simp] theorem State.setRw_sidx (s : State) (v : Level) : (State.setLevel s .rw v).sidx = s.sidx := rfl
@[simp] theorem State.setRw_pollcnt (s : State) (v : Level) : (State.setLevel s .rw v).pollcnt = s.pollcnt := rfl
@[simp] theorem State.setRw_fault (s : State) (v : Level) : (State.setLevel s .rw v).fault = s.fault := rfl
@[simp] theorem State.setRw_str (s : State) (v : Level) : (State.setLevel s .rw v).str = s.str := rfl
@[simp] theorem State.setRw_bus (s : State) (v : Level) : (State.setLevel s .rw v).bus = s.bus ++ [.lvl .rw v] := rfl
@[simp] theorem State.setRw_ops (s : State) (v : Level) : (State.setLevel s .rw v).ops = s.ops := rfl
@[simp] theorem State.setRw_pollLimit (s : State) (v : Level) : (State.setLevel s .rw v).pollLimit = s.pollLimit := rfl
@[simp] theorem State.setRw_host (s : State) (v : Level) : (State.setLevel s .rw v).host = s.host := rfl
@[simp] theorem State.setRw_lcd (s : State) (v : Level) : (State.setLevel s .rw v).lcd = s.lcd := rfl
@[simp] theorem State.setRw_d7Draws (s : State) (v : Level) : (State.setLevel s .rw v).d7Draws = s.d7Draws := rfl
@[simp] theorem State.setRw_resets (s : State) (v : Level) : (State.setLevel s .rw v).resets = s.resets := rfl

/-! ### State.setLevel s .rs v -/

@[simp] theorem State.setRs_dOut (s : State) (v : Level) : (State.setLevel s .rs v).dOut = s.dOut := rfl
@[simp] theorem State.setRs_d7oe (s : State) (v : Level) : (State.setLevel s .rs v).d7oe = s.d7oe := rfl
@[simp] theorem State.setRs_e (s : State) (v : Level) : (State.setLevel s .rs v).e = s.e := rfl
@[simp] theorem State.setRs_rw (s : State) (v : Level) : (State.setLevel s .rs v).rw = s.rw := rfl
@[simp] theorem State.setRs_rs (s : State) (v : Level) : (State.setLevel s .rs v).rs = v := rfl
@[simp] theorem State.setRs_pwr (s : State) (v : Level) : (State.setLevel s .rs v).pwr = s.pwr := rfl
@[simp] theorem State.setRs_bf (s : State) (v : Level) : (State.setLevel s .rs v).bf = s.bf := rfl
@[simp] theorem State.setRs_pc (s : State) (v : Level) : (State.setLevel s .rs v).pc = s.pc := rfl
@[simp] theorem State.setRs_op (s : State) (v : Level) : (State.setLevel s .rs v).op = s.op := rfl
@[simp] theorem State.setRs_arg (s : State) (v : Level) : (State.setLevel s .rs v).arg = s.arg := rfl
@[simp] theorem State.setRs_sel (s : State) (v : Level) : (State.setLevel s .rs v).sel = s.sel := rfl
@[simp] theorem State.setRs_byt (s : State) (v : Level) : (State.setLevel s .rs v).byt = s.byt := rfl
@[simp] theorem State.setRs_nib (s : State) (v : Level) : (State.setLevel s .rs v).nib = s.nib := rfl
@[simp] theorem State.setRs_ch (s : State) (v : Level) : (State.setLevel s .rs v).ch = s.ch := rfl
@[simp] theorem State.setRs_sidx (s : State) (v : Level) : (State.setLevel s .rs v).sidx = s.sidx := rfl
@[simp] theorem State.setRs_pollcnt (s : State) (v : Level) : (State.setLevel s .rs v).pollcnt = s.pollcnt := rfl
@[simp] theorem State.setRs_fault (s : State) (v : Level) : (State.setLevel s .rs v).fault = s.fault := rfl
@[simp] theorem State.setRs_str (s : State) (v : Level) : (State.setLevel s .rs v).str = s.str := rfl
@[simp] theorem State.setRs_bus (s : State) (v : Level) : (State.setLevel s .rs v).bus = s.bus ++ [.lvl .rs v] := rfl
@[simp] theorem State.setRs_ops (s : State) (v : Level) : (State.setLevel s .rs v).ops = s.ops := rfl
@[simp] theorem State.setRs_pollLimit (s : State) (v : Level) : (State.setLevel s .rs v).pollLimit = s.pollLimit := rfl
@[simp] theorem State.setRs_host (s : State) (v : Level) : (State.setLevel s .rs v).host = s.host := rfl
@[simp] theorem State.setRs_lcd (s : State) (v : Level) : (State.setLevel s .rs v).lcd = s.lcd := rfl
@[simp] theorem State.setRs_d7Draws (s : State) (v : Level) : (State.setLevel s .rs v).d7Draws = s.d7Draws := rfl
@[simp] theorem State.setRs_resets (s : State) (v : Level) : (State.setLevel s .rs v).resets = s.resets := rfl

/-! ### State.setLevel s .pwr v -/

@[simp] theorem State.setPwr_dOut (s : State) (v : Level) : (State.setLevel s .pwr v).dOut = s.dOut := rfl
@[simp] theorem State.setPwr_d7oe (s : State) (v : Level) : (State.setLevel s .pwr v).d7oe = s.d7oe := rfl
@[simp] theorem State.setPwr_e (s : State) (v : Level) : (State.setLevel s .pwr v).e = s.e := rfl
@[simp] theorem State.setPwr_rw (s : State) (v : Level) : (State.setLevel s .pwr v).rw = s.rw := rfl
@[simp] theorem State.setPwr_rs (s : State) (v : Level) : (State.setLevel s .pwr v).rs = s.rs := rfl
@[simp] theorem State.setPwr_pwr (s : State) (v : Level) : (State.setLevel s .pwr v).pwr = v := rfl
@[simp] theorem State.setPwr_bf (s : State) (v : Level) : (State.setLevel s .pwr v).bf = s.bf := rfl
@[simp] theorem State.setPwr_pc (s : State) (v : Level) : (State.setLevel s .pwr v).pc = s.pc := rfl
@[simp] theorem State.setPwr_op (s : State) (v : Level) : (State.setLevel s .pwr v).op = s.op := rfl
@[simp] theorem State.setPwr_arg (s : State) (v : Level) : (State.setLevel s .pwr v).arg = s.arg := rfl
@[simp] theorem State.setPwr_sel (s : State) (v : Level) : (State.setLevel s .pwr v).sel = s.sel := rfl
@[simp] theorem State.setPwr_byt (s : State) (v : Level) : (State.setLevel s .pwr v).byt = s.byt := rfl
@[simp] theorem State.setPwr_nib (s : State) (v : Level) : (State.setLevel s .pwr v).nib = s.nib := rfl
@[simp] theorem State.setPwr_ch (s : State) (v : Level) : (State.setLevel s .pwr v).ch = s.ch := rfl
@[simp] theorem State.setPwr_sidx (s : State) (v : Level) : (State.setLevel s .pwr v).sidx = s.sidx := rfl
@[simp] theorem State.setPwr_pollcnt (s : State) (v : Level) : (State.setLevel s .pwr v).pollcnt = s.pollcnt := rfl
@[simp] theorem State.setPwr_fault (s : State) (v : Level) : (State.setLevel s .pwr v).fault = s.fault := rfl
@[simp] theorem State.setPwr_str (s : State) (v : Level) : (State.setLevel s .pwr v).str = s.str := rfl
@[simp] theorem State.setPwr_bus (s : State) (v : Level) : (State.setLevel s .pwr v).bus = s.bus ++ [.lvl .pwr v] := rfl
@[simp] theorem State.setPwr_ops (s : State) (v : Level) : (State.setLevel s .pwr v).ops = s.ops := rfl
@[simp] theorem State.setPwr_pollLimit (s : State) (v : Level) : (State.setLevel s .pwr v).pollLimit = s.pollLimit := rfl
@[simp] theorem State.setPwr_host (s : State) (v : Level) : (State.setLevel s .pwr v).host = s.host := rfl
@[simp] theorem State.setPwr_lcd (s : State) (v : Level) : (State.setLevel s .pwr v).lcd = s.lcd := rfl
@[simp] theorem State.setPwr_d7Draws (s : State) (v : Level) : (State.setLevel s .pwr v).d7Draws = s.d7Draws := rfl
@[simp] theorem State.setPwr_resets (s : State) (v : Level) : (State.setLevel s .pwr v).resets = s.resets := rfl

/-! ### State.setData s n -/

@[simp] theorem State.setData_dOut (s : State) (n : Nibble) : (State.setData s n).dOut = n := rfl
@[simp] theorem State.setData_d7oe (s : State) (n : Nibble) : (State.setData s n).d7oe = s.d7oe := rfl
@[simp] theorem State.setData_e (s : State) (n : Nibble) : (State.setData s n).e = s.e := rfl
@[simp] theorem State.setData_rw (s : State) (n : Nibble) : (State.setData s n).rw = s.rw := rfl
@[simp] theorem State.setData_rs (s : State) (n : Nibble) : (State.setData s n).rs = s.rs := rfl
@[simp] theorem State.setData_pwr (s : State) (n : Nibble) : (State.setData s n).pwr = s.pwr := rfl
@[simp] theorem State.setData_bf (s : State) (n : Nibble) : (State.setData s n).bf = s.bf := rfl
@[simp] theorem State.setData_pc (s : State) (n : Nibble) : (State.setData s n).pc = s.pc := rfl
@[simp] theorem State.setData_op (s : State) (n : Nibble) : (State.setData s n).op = s.op := rfl
@[simp] theorem State.setData_arg (s : State) (n : Nibble) : (State.setData s n).arg = s.arg := rfl
@[simp] theorem State.setData_sel (s : State) (n : Nibble) : (State.setData s n).sel = s.sel := rfl
@[simp] theorem State.setData_byt (s : State) (n : Nibble) : (State.setData s n).byt = s.byt := rfl
@[simp] theorem State.setData_nib (s : State) (n : Nibble) : (State.setData s n).nib = s.nib := rfl
@[simp] theorem State.setData_ch (s : State) (n : Nibble) : (State.setData s n).ch = s.ch := rfl
@[simp] theorem State.setData_sidx (s : State) (n : Nibble) : (State.setData s n).sidx = s.sidx := rfl
@[simp] theorem State.setData_pollcnt (s : State) (n : Nibble) : (State.setData s n).pollcnt = s.pollcnt := rfl
@[simp] theorem State.setData_fault (s : State) (n : Nibble) : (State.setData s n).fault = s.fault := rfl
@[simp] theorem State.setData_str (s : State) (n : Nibble) : (State.setData s n).str = s.str := rfl
@[simp] theorem State.setData_bus (s : State) (n : Nibble) : (State.setData s n).bus = s.bus ++ [.data n] := rfl
@[simp] theorem State.setData_ops (s : State) (n : Nibble) : (State.setData s n).ops = s.ops := rfl
@[simp] theorem State.setData_pollLimit (s : State) (n : Nibble) : (State.setData s n).pollLimit = s.pollLimit := rfl
@[simp] theorem State.setData_host (s : State) (n : Nibble) : (State.setData s n).host = s.host := rfl
@[simp] theorem State.setData_lcd (s : State) (n : Nibble) : (State.setData s n).lcd = s.lcd := rfl
@[simp] theorem State.setData_d7Draws (s : State) (n : Nibble) : (State.setData s n).d7Draws = s.d7Draws := rfl
@[simp] theorem State.setData_resets (s : State) (n : Nibble) : (State.setData s n).resets = s.resets := rfl

/-! ### State.wait s t -/

@[simp] theorem State.wait_dOut (s : State) (t : Micros) : (State.wait s t).dOut = s.dOut := rfl
@[simp] theorem State.wait_d7oe (s : State) (t : Micros) : (State.wait s t).d7oe = s.d7oe := rfl
@[simp] theorem State.wait_e (s : State) (t : Micros) : (State.wait s t).e = s.e := rfl
@[simp] theorem State.wait_rw (s : State) (t : Micros) : (State.wait s t).rw = s.rw := rfl
@[simp] theorem State.wait_rs (s : State) (t : Micros) : (State.wait s t).rs = s.rs := rfl
@[simp] theorem State.wait_pwr (s : State) (t : Micros) : (State.wait s t).pwr = s.pwr := rfl
@[simp] theorem State.wait_bf (s : State) (t : Micros) : (State.wait s t).bf = s.bf := rfl
@[simp] theorem State.wait_pc (s : State) (t : Micros) : (State.wait s t).pc = s.pc := rfl
@[simp] theorem State.wait_op (s : State) (t : Micros) : (State.wait s t).op = s.op := rfl
@[simp] theorem State.wait_arg (s : State) (t : Micros) : (State.wait s t).arg = s.arg := rfl
@[simp] theorem State.wait_sel (s : State) (t : Micros) : (State.wait s t).sel = s.sel := rfl
@[simp] theorem State.wait_byt (s : State) (t : Micros) : (State.wait s t).byt = s.byt := rfl
@[simp] theorem State.wait_nib (s : State) (t : Micros) : (State.wait s t).nib = s.nib := rfl
@[simp] theorem State.wait_ch (s : State) (t : Micros) : (State.wait s t).ch = s.ch := rfl
@[simp] theorem State.wait_sidx (s : State) (t : Micros) : (State.wait s t).sidx = s.sidx := rfl
@[simp] theorem State.wait_pollcnt (s : State) (t : Micros) : (State.wait s t).pollcnt = s.pollcnt := rfl
@[simp] theorem State.wait_fault (s : State) (t : Micros) : (State.wait s t).fault = s.fault := rfl
@[simp] theorem State.wait_str (s : State) (t : Micros) : (State.wait s t).str = s.str := rfl
@[simp] theorem State.wait_bus (s : State) (t : Micros) : (State.wait s t).bus = s.bus ++ [.wait t] := rfl
@[simp] theorem State.wait_ops (s : State) (t : Micros) : (State.wait s t).ops = s.ops := rfl
@[simp] theorem State.wait_pollLimit (s : State) (t : Micros) : (State.wait s t).pollLimit = s.pollLimit := rfl
@[simp] theorem State.wait_host (s : State) (t : Micros) : (State.wait s t).host = s.host := rfl
@[simp] theorem State.wait_lcd (s : State) (t : Micros) : (State.wait s t).lcd = s.lcd := rfl
@[simp] theorem State.wait_d7Draws (s : State) (t : Micros) : (State.wait s t).d7Draws = s.d7Draws := rfl
@[simp] theorem State.wait_resets (s : State) (t : Micros) : (State.wait s t).resets = s.resets := rfl

/-! ### State.goTo s l -/

@[simp] theorem State.goTo_dOut (s : State) (l : Label) : (State.goTo s l).dOut = s.dOut := rfl
@[simp] theorem State.goTo_d7oe (s : State) (l : Label) : (State.goTo s l).d7oe = s.d7oe := rfl
@[simp] theorem State.goTo_e (s : State) (l : Label) : (State.goTo s l).e = s.e := rfl
@[simp] theorem State.goTo_rw (s : State) (l : Label) : (State.goTo s l).rw = s.rw := rfl
@[simp] theorem State.goTo_rs (s : State) (l : Label) : (State.goTo s l).rs = s.rs := rfl
@[simp] theorem State.goTo_pwr (s : State) (l : Label) : (State.goTo s l).pwr = s.pwr := rfl
@[simp] theorem State.goTo_bf (s : State) (l : Label) : (State.goTo s l).bf = s.bf := rfl
@[simp] theorem State.goTo_pc (s : State) (l : Label) : (State.goTo s l).pc = l :: s.pc.tail := rfl
@[simp] theorem State.goTo_op (s : State) (l : Label) : (State.goTo s l).op = s.op := rfl
@[simp] theorem State.goTo_arg (s : State) (l : Label) : (State.goTo s l).arg = s.arg := rfl
@[simp] theorem State.goTo_sel (s : State) (l : Label) : (State.goTo s l).sel = s.sel := rfl
@[simp] theorem State.goTo_byt (s : State) (l : Label) : (State.goTo s l).byt = s.byt := rfl
@[simp] theorem State.goTo_nib (s : State) (l : Label) : (State.goTo s l).nib = s.nib := rfl
@[simp] theorem State.goTo_ch (s : State) (l : Label) : (State.goTo s l).ch = s.ch := rfl
@[simp] theorem State.goTo_sidx (s : State) (l : Label) : (State.goTo s l).sidx = s.sidx := rfl
@[simp] theorem State.goTo_pollcnt (s : State) (l : Label) : (State.goTo s l).pollcnt = s.pollcnt := rfl
@[simp] theorem State.goTo_fault (s : State) (l : Label) : (State.goTo s l).fault = s.fault := rfl
@[simp] theorem State.goTo_str (s : State) (l : Label) : (State.goTo s l).str = s.str := rfl
@[simp] theorem State.goTo_bus (s : State) (l : Label) : (State.goTo s l).bus = s.bus := rfl
@[simp] theorem State.goTo_ops (s : State) (l : Label) : (State.goTo s l).ops = s.ops := rfl
@[simp] theorem State.goTo_pollLimit (s : State) (l : Label) : (State.goTo s l).pollLimit = s.pollLimit := rfl
@[simp] theorem State.goTo_host (s : State) (l : Label) : (State.goTo s l).host = s.host := rfl
@[simp] theorem State.goTo_lcd (s : State) (l : Label) : (State.goTo s l).lcd = s.lcd := rfl
@[simp] theorem State.goTo_d7Draws (s : State) (l : Label) : (State.goTo s l).d7Draws = s.d7Draws := rfl
@[simp] theorem State.goTo_resets (s : State) (l : Label) : (State.goTo s l).resets = s.resets := rfl

/-! ### State.callThen s l m -/

@[simp] theorem State.callThen_dOut (s : State) (l m : Label) : (State.callThen s l m).dOut = s.dOut := rfl
@[simp] theorem State.callThen_d7oe (s : State) (l m : Label) : (State.callThen s l m).d7oe = s.d7oe := rfl
@[simp] theorem State.callThen_e (s : State) (l m : Label) : (State.callThen s l m).e = s.e := rfl
@[simp] theorem State.callThen_rw (s : State) (l m : Label) : (State.callThen s l m).rw = s.rw := rfl
@[simp] theorem State.callThen_rs (s : State) (l m : Label) : (State.callThen s l m).rs = s.rs := rfl
@[simp] theorem State.callThen_pwr (s : State) (l m : Label) : (State.callThen s l m).pwr = s.pwr := rfl
@[simp] theorem State.callThen_bf (s : State) (l m : Label) : (State.callThen s l m).bf = s.bf := rfl
@[simp] theorem State.callThen_pc (s : State) (l m : Label) : (State.callThen s l m).pc = l :: m :: s.pc.tail := rfl
@[simp] theorem State.callThen_op (s : State) (l m : Label) : (State.callThen s l m).op = s.op := rfl
@[simp] theorem State.callThen_arg (s : State) (l m : Label) : (State.callThen s l m).arg = s.arg := rfl
@[simp] theorem State.callThen_sel (s : State) (l m : Label) : (State.callThen s l m).sel = s.sel := rfl
@[simp] theorem State.callThen_byt (s : State) (l m : Label) : (State.callThen s l m).byt = s.byt := rfl
@[simp] theorem State.callThen_nib (s : State) (l m : Label) : (State.callThen s l m).nib = s.nib := rfl
@[simp] theorem State.callThen_ch (s : State) (l m : Label) : (State.callThen s l m).ch = s.ch := rfl
@[simp] theorem State.callThen_sidx (s : State) (l m : Label) : (State.callThen s l m).sidx = s.sidx := rfl
@[simp] theorem State.callThen_pollcnt (s : State) (l m : Label) : (State.callThen s l m).pollcnt = s.pollcnt := rfl
@[simp] theorem State.callThen_fault (s : State) (l m : Label) : (State.callThen s l m).fault = s.fault := rfl
@[simp] theorem State.callThen_str (s : State) (l m : Label) : (State.callThen s l m).str = s.str := rfl
@[simp] theorem State.callThen_bus (s : State) (l m : Label) : (State.callThen s l m).bus = s.bus := rfl
@[simp] theorem State.callThen_ops (s : State) (l m : Label) : (State.callThen s l m).ops = s.ops := rfl
@[simp] theorem State.callThen_pollLimit (s : State) (l m : Label) : (State.callThen s l m).pollLimit = s.pollLimit := rfl
@[simp] theorem State.callThen_host (s : State) (l m : Label) : (State.callThen s l m).host = s.host := rfl
@[simp] theorem State.callThen_lcd (s : State) (l m : Label) : (State.callThen s l m).lcd = s.lcd := rfl
@[simp] theorem State.callThen_d7Draws (s : State) (l m : Label) : (State.callThen s l m).d7Draws = s.d7Draws := rfl
@[simp] theorem State.callThen_resets (s : State) (l m : Label) : (State.callThen s l m).resets = s.resets := rfl

/-! ### State.callRet s l -/

@[simp] theorem State.callRet_dOut (s : State) (l : Label) : (State.callRet s l).dOut = s.dOut := rfl
@[simp] theorem State.callRet_d7oe (s : State) (l : Label) : (State.callRet s l).d7oe = s.d7oe := rfl
@[simp] theorem State.callRet_e (s : State) (l : Label) : (State.callRet s l).e = s.e := rfl
@[simp] theorem State.callRet_rw (s : State) (l : Label) : (State.callRet s l).rw = s.rw := rfl
@[simp] theorem State.callRet_rs (s : State) (l : Label) : (State.callRet s l).rs = s.rs := rfl
@[simp] theorem State.callRet_pwr (s : State) (l : Label) : (State.callRet s l).pwr = s.pwr := rfl
@[simp] theorem State.callRet_bf (s : State) (l : Label) : (State.callRet s l).bf = s.bf := rfl
@[simp] theorem State.callRet_pc (s : State) (l : Label) : (State.callRet s l).pc = l :: s.pc.tail := rfl
@[simp] theorem State.callRet_op (s : State) (l : Label) : (State.callRet s l).op = s.op := rfl
@[simp] theorem State.callRet_arg (s : State) (l : Label) : (State.callRet s l).arg = s.arg := rfl
@[simp] theorem State.callRet_sel (s : State) (l : Label) : (State.callRet s l).sel = s.sel := rfl
@[simp] theorem State.callRet_byt (s : State) (l : Label) : (State.callRet s l).byt = s.byt := rfl
@[simp] theorem State.callRet_nib (s : State) (l : Label) : (State.callRet s l).nib = s.nib := rfl
@[simp] theorem State.callRet_ch (s : State) (l : Label) : (State.callRet s l).ch = s.ch := rfl
@[simp] theorem State.callRet_sidx (s : State) (l : Label) : (State.callRet s l).sidx = s.sidx := rfl
@[simp] theorem State.callRet_pollcnt (s : State) (l : Label) : (State.callRet s l).pollcnt = s.pollcnt := rfl
@[simp] theorem State.callRet_fault (s : State) (l : Label) : (State.callRet s l).fault = s.fault := rfl
@[simp] theorem State.callRet_str (s : State) (l : Label) : (State.callRet s l).str = s.str := rfl
@[simp] theorem State.callRet_bus (s : State) (l : Label) : (State.callRet s l).bus = s.bus := rfl
@[simp] theorem State.callRet_ops (s : State) (l : Label) : (State.callRet s l).ops = s.ops := rfl
@[simp] theorem State.callRet_pollLimit (s : State) (l : Label) : (State.callRet s l).pollLimit = s.pollLimit := rfl
@[simp] theorem State.callRet_host (s : State) (l : Label) : (State.callRet s l).host = s.host := rfl
@[simp] theorem State.callRet_lcd (s : State) (l : Label) : (State.callRet s l).lcd = s.lcd := rfl
@[simp] theorem State.callRet_d7Draws (s : State) (l : Label) : (State.callRet s l).d7Draws = s.d7Draws := rfl
@[simp] theorem State.callRet_resets (s : State) (l : Label) : (State.callRet s l).resets = s.resets := rfl

/-! ### State.ret s -/

@[simp] theorem State.ret_dOut (s : State) : (State.ret s).dOut = s.dOut := rfl
@[simp] theorem State.ret_d7oe (s : State) : (State.ret s).d7oe = s.d7oe := rfl
@[simp] theorem State.ret_e (s : State) : (State.ret s).e = s.e := rfl
@[simp] theorem State.ret_rw (s : State) : (State.ret s).rw = s.rw := rfl
@[simp] theorem State.ret_rs (s : State) : (State.ret s).rs = s.rs := rfl
@[simp] theorem State.ret_pwr (s : State) : (State.ret s).pwr = s.pwr := rfl
@[simp] theorem State.ret_bf (s : State) : (State.ret s).bf = s.bf := rfl
@[simp] theorem State.ret_pc (s : State) : (State.ret s).pc = s.pc.tail := rfl
@[simp] theorem State.ret_op (s : State) : (State.ret s).op = s.op := rfl
@[simp] theorem State.ret_arg (s : State) : (State.ret s).arg = s.arg := rfl
@[simp] theorem State.ret_sel (s : State) : (State.ret s).sel = s.sel := rfl
@[simp] theorem State.ret_byt (s : State) : (State.ret s).byt = s.byt := rfl
@[simp] theorem State.ret_nib (s : State) : (State.ret s).nib = s.nib := rfl
@[simp] theorem State.ret_ch (s : State) : (State.ret s).ch = s.ch := rfl
@[simp] theorem State.ret_sidx (s : State) : (State.ret s).sidx = s.sidx := rfl
@[simp] theorem State.ret_pollcnt (s : State) : (State.ret s).pollcnt = s.pollcnt := rfl
@[simp] theorem State.ret_fault (s : State) : (State.ret s).fault = s.fault := rfl
@[simp] theorem State.ret_str (s : State) : (State.ret s).str = s.str := rfl
@[simp] theorem State.ret_bus (s : State) : (State.ret s).bus = s.bus := rfl
@[simp] theorem State.ret_ops (s : State) : (State.ret s).ops = s.ops := rfl
@[simp] theorem State.ret_pollLimit (s : State) : (State.ret s).pollLimit = s.pollLimit := rfl
@[simp] theorem State.ret_host (s : State) : (State.ret s).host = s.host := rfl
@[simp] theorem State.ret_lcd (s : State) : (State.ret s).lcd = s.lcd := rfl
@[simp] theorem State.ret_d7Draws (s : State) : (State.ret s).d7Draws = s.d7Draws := rfl
@[simp] theorem State.ret_resets (s : State) : (State.ret s).resets = s.resets := rfl

/-! ### State.raiseControllerUnresponsive s -/

@[simp] theorem State.raise_dOut (s : State) : (State.raiseControllerUnresponsive s).dOut = s.dOut := rfl
@[simp] theorem State.raise_d7oe (s : State) : (State.raiseControllerUnresponsive s).d7oe = s.d7oe := rfl
@[simp] theorem State.raise_e (s : State) : (State.raiseControllerUnresponsive s).e = s.e := rfl
@[simp] theorem State.raise_rw (s : State) : (State.raiseControllerUnresponsive s).rw = s.rw := rfl
@[simp] theorem State.raise_rs (s : State) : (State.raiseControllerUnresponsive s).rs = s.rs := rfl
@[simp] theorem State.raise_pwr (s : State) : (State.raiseControllerUnresponsive s).pwr = s.pwr := rfl
@[simp] theorem State.raise_bf (s : State) : (State.raiseControllerUnresponsive s).bf = s.bf := rfl
@[simp] theorem State.raise_pc (s : State) : (State.raiseControllerUnresponsive s).pc = [] := rfl
@[simp] theorem State.raise_op (s : State) : (State.raiseControllerUnresponsive s).op = s.op := rfl
@[simp] theorem State.raise_arg (s : State) : (State.raiseControllerUnresponsive s).arg = s.arg := rfl
@[simp] theorem State.raise_sel (s : State) : (State.raiseControllerUnresponsive s).sel = s.sel := rfl
@[simp] theorem State.raise_byt (s : State) : (State.raiseControllerUnresponsive s).byt = s.byt := rfl
@[simp] theorem State.raise_nib (s : State) : (State.raiseControllerUnresponsive s).nib = s.nib := rfl
@[simp] theorem State.raise_ch (s : State) : (State.raiseControllerUnresponsive s).ch = s.ch := rfl
@[simp] theorem State.raise_sidx (s : State) : (State.raiseControllerUnresponsive s).sidx = s.sidx := rfl
@[simp] theorem State.raise_pollcnt (s : State) : (State.raiseControllerUnresponsive s).pollcnt = s.pollcnt := rfl
@[simp] theorem State.raise_fault (s : State) : (State.raiseControllerUnresponsive s).fault = true := rfl
@[simp] theorem State.raise_str (s : State) : (State.raiseControllerUnresponsive s).str = s.str := rfl
@[simp] theorem State.raise_bus (s : State) : (State.raiseControllerUnresponsive s).bus = s.bus := rfl
@[simp] theorem State.raise_ops (s : State) : (State.raiseControllerUnresponsive s).ops = s.ops ++ [.fault .controllerUnresponsive s.pollcnt] := rfl
@[simp] theorem State.raise_pollLimit (s : State) : (State.raiseControllerUnresponsive s).pollLimit = s.pollLimit := rfl
@[simp] theorem State.raise_host (s : State) : (State.raiseControllerUnresponsive s).host = s.host := rfl
@[simp] theorem State.raise_lcd (s : State) : (State.raiseControllerUnresponsive s).lcd = s.lcd := rfl
@[simp] theorem State.raise_d7Draws (s : State) : (State.raiseControllerUnresponsive s).d7Draws = s.d7Draws := rfl
@[simp] theorem State.raise_resets (s : State) : (State.raiseControllerUnresponsive s).resets = s.resets := rfl

/-! ### State.resetStep s -/

@[simp] theorem State.resetStep_dOut (s : State) : (State.resetStep s).dOut = (Config.resetDraw s.resets).dOut := rfl
@[simp] theorem State.resetStep_d7oe (s : State) : (State.resetStep s).d7oe = true := rfl
@[simp] theorem State.resetStep_e (s : State) : (State.resetStep s).e = false := rfl
@[simp] theorem State.resetStep_rw (s : State) : (State.resetStep s).rw = false := rfl
@[simp] theorem State.resetStep_rs (s : State) : (State.resetStep s).rs = (Config.resetDraw s.resets).rs := rfl
@[simp] theorem State.resetStep_pwr (s : State) : (State.resetStep s).pwr = false := rfl
@[simp] theorem State.resetStep_bf (s : State) : (State.resetStep s).bf = (Config.resetDraw s.resets).bf := rfl
@[simp] theorem State.resetStep_pc (s : State) : (State.resetStep s).pc = [] := rfl
@[simp] theorem State.resetStep_op (s : State) : (State.resetStep s).op = (Config.resetDraw s.resets).op := rfl
@[simp] theorem State.resetStep_arg (s : State) : (State.resetStep s).arg = (Config.resetDraw s.resets).arg := rfl
@[simp] theorem State.resetStep_sel (s : State) : (State.resetStep s).sel = (Config.resetDraw s.resets).sel := rfl
@[simp] theorem State.resetStep_byt (s : State) : (State.resetStep s).byt = (Config.resetDraw s.resets).byt := rfl
@[simp] theorem State.resetStep_nib (s : State) : (State.resetStep s).nib = (Config.resetDraw s.resets).nib := rfl
@[simp] theorem State.resetStep_ch (s : State) : (State.resetStep s).ch = (Config.resetDraw s.resets).ch := rfl
@[simp] theorem State.resetStep_sidx (s : State) : (State.resetStep s).sidx = (Config.resetDraw s.resets).sidx := rfl
@[simp] theorem State.resetStep_pollcnt (s : State) : (State.resetStep s).pollcnt = (Config.resetDraw s.resets).pollcnt := rfl
@[simp] theorem State.resetStep_fault (s : State) : (State.resetStep s).fault = false := rfl
@[simp] theorem State.resetStep_str (s : State) : (State.resetStep s).str = Str.empty := rfl
@[simp] theorem State.resetStep_bus (s : State) : (State.resetStep s).bus = [] := rfl
@[simp] theorem State.resetStep_ops (s : State) : (State.resetStep s).ops = [] := rfl
@[simp] theorem State.resetStep_pollLimit (s : State) : (State.resetStep s).pollLimit = s.pollLimit := rfl
@[simp] theorem State.resetStep_host (s : State) : (State.resetStep s).host = s.host := rfl
@[simp] theorem State.resetStep_lcd (s : State) : (State.resetStep s).lcd = s.lcd := rfl
@[simp] theorem State.resetStep_d7Draws (s : State) : (State.resetStep s).d7Draws = s.d7Draws := rfl
@[simp] theorem State.resetStep_resets (s : State) : (State.resetStep s).resets = s.resets + 1 := rfl

end Sys2Proof.Machine
end

