-- ==== Sys2Proof/Laws/Ops.lean ====
section
/-! SUPPORT. What each shared operation can do, said once: the string space, the draws, acceptance, the flags. -/

namespace Sys2Proof.Machine

/-! ## The string space -/

/-- The bytes of a list placed from `i` on are canonical from `i` on. -/
theorem Memory.ofBytesFrom_wf (bs : List Byte) : ∀ i lo, lo ≤ i → Memory.wfFrom lo (Memory.ofBytesFrom i bs) = true := by
  induction bs with
  | nil => intro i lo _; rfl
  | cons b rest ih =>
    intro i lo h
    unfold Memory.ofBytesFrom
    split
    · exact ih (i + 1) lo (by omega)
    · next hb => simp [Memory.wfFrom, h, hb, ih (i + 1) (i + 1) le_rfl]

/-- Building a memory from bytes keeps the canonical form. -/
theorem Memory.ofBytes_wf (bs : List Byte) : Memory.wf (Memory.ofBytes bs) = true :=
  Memory.ofBytesFrom_wf bs 0 0 le_rfl

/-- Every index listed lies where its byte stood. -/
theorem Memory.ofBytesFrom_lt (bs : List Byte) :
    ∀ i, ∀ c ∈ Memory.ofBytesFrom i bs, i ≤ c.1 ∧ c.1 < i + bs.length := by
  induction bs with
  | nil => intro i c h; simp [Memory.ofBytesFrom] at h
  | cons b rest ih =>
    intro i c h
    have step : ∀ c ∈ Memory.ofBytesFrom (i + 1) rest, i ≤ c.1 ∧ c.1 < i + (b :: rest).length := by
      intro c hc
      have := ih (i + 1) c hc
      simp only [List.length_cons]
      omega
    unfold Memory.ofBytesFrom at h
    split at h
    · exact step c h
    · rcases List.mem_cons.mp h with rfl | hc
      · simp
      · exact step c hc

/-- An index below the first listed one reads as unlisted. -/
theorem Memory.read_of_lt (m : Memory) : ∀ i, (∀ c ∈ m, i < c.1) → Memory.read m i = Memory.unlisted := by
  induction m with
  | nil => intro i _; rfl
  | cons c rest ih =>
    intro i h
    have hc := h c List.mem_cons_self
    simp only [Memory.read, if_neg (Nat.ne_of_gt hc)]
    exact ih i (fun d hd => h d (List.mem_cons_of_mem _ hd))

/-- Reading a memory built from bytes gives the byte that stood there. -/
theorem Memory.read_ofBytesFrom (bs : List Byte) :
    ∀ i j, Memory.read (Memory.ofBytesFrom i bs) (i + j) = bs.getD j Memory.unlisted := by
  induction bs with
  | nil => intro i j; simp [Memory.ofBytesFrom, Memory.read]
  | cons b rest ih =>
    intro i j
    cases j with
    | zero =>
      have hread : Memory.read (Memory.ofBytesFrom (i + 1) rest) i = Memory.unlisted :=
        Memory.read_of_lt _ i (fun c hc => (Memory.ofBytesFrom_lt rest (i + 1) c hc).1)
      unfold Memory.ofBytesFrom
      split
      · next hb => simp [hread, hb]
      · simp [Memory.read]
    | succ j =>
      have hshift : i + (j + 1) = i + 1 + j := by omega
      unfold Memory.ofBytesFrom
      split
      · rw [hshift, ih]; simp
      · rw [hshift]
        simp only [Memory.read, if_neg (show ¬ i = i + 1 + j by omega), ih]
        simp

/-- `STR(i)` of a string argument (R51): the listed byte, or what the tail gives. -/
theorem Str.read_ofArg (a : StringArg) (i : Nat) :
    (Str.ofArg a).read i = if i < a.bytes.length then a.bytes.getD i 0 else StreamTail.at i a.tail := by
  have h := Memory.read_ofBytesFrom a.bytes 0 i
  rw [Nat.zero_add] at h
  simp only [Str.read, Str.ofArg, Memory.ofBytes, h]
  rfl

/-- Binding a string keeps the string space canonical. -/
theorem Str.ofArg_wf (a : StringArg) : (Str.ofArg a).wf = true := by
  simp only [Str.wf, Str.ofArg, Memory.ofBytes_wf, Bool.true_and, List.all_eq_true]
  intro c hc
  have h := (Memory.ofBytesFrom_lt a.bytes 0 c hc).2
  rw [Nat.zero_add] at h
  exact decide_eq_true h

/-! ## The draws (R69) -/

/-- After one draw the next answers move up by one. -/
theorem State.drawAt_tookDraw (s : State) (i : Nat) : s.tookDraw.drawAt i = s.drawAt (i + 1) := by
  cases h : s.lcd with
  | nil => simp [State.drawAt, State.tookDraw, h, Nat.add_assoc, Nat.add_comm 1 i]
  | cons b rest => simp [State.drawAt, State.tookDraw, h]

/-- All that a draw changes. -/
theorem State.tookDraw_eq (s : State) :
    s.tookDraw = { s with lcd := s.lcd.drop 1, d7Draws := s.d7Draws + (1 - s.lcd.length) } := by
  cases s with
  | mk dOut d7oe e rw rs pwr bf pc op arg sel byt nib ch sidx pollcnt fault str bus ops pollLimit host lcd d7Draws resets =>
    cases lcd with
    | nil => rfl
    | cons b rest => simp [State.tookDraw]

/-- Row P6's read while D7 is an input: the next answer, and nothing else but the event and the draw (R114, R131). -/
theorem State.sampleBusy_input (s : State) (h : s.d7oe = false) :
    s.sampleBusy = { s.tookDraw with bf := s.drawAt 0, bus := s.bus ++ [.sample (s.drawAt 0)] } := by
  have hb : s.tookDraw.bus = s.bus := by rw [State.tookDraw_eq]
  simp only [State.sampleBusy, State.readLevelD7, State.levelOnD7, h, State.emit, hb]

/-! ## The verdict of row P13 (R131, R225) -/

/-- Ready comes first. -/
theorem pollVerdict_ready_iff (limit : Option Nat) (bf : Level) (cnt : Nat) :
    pollVerdict limit bf cnt = .ready ↔ bf = false := by
  cases bf <;> cases limit <;> simp [pollVerdict]
  split <;> simp

/-- The poll gives up only when busy, with a limit, at or past it. -/
theorem pollVerdict_giveUp_iff (limit : Option Nat) (bf : Level) (cnt : Nat) :
    pollVerdict limit bf cnt = .giveUp ↔ bf = true ∧ ∃ l, limit = some l ∧ l ≤ cnt := by
  cases bf <;> cases limit <;> simp [pollVerdict]

/-! ## Acceptance (R118) -/

/-- Acceptance always answers: the command is taken when idle, not seen when busy. -/
theorem State.accept_eq (s : State) (op : OpCode) (arg : Byte) (entry : List Label) :
    s.accept op arg entry = .next (if s.pc = [] then { s with op := op, arg := arg, pc := entry } else s) := by
  unfold State.accept
  split <;> simp_all

/-- Acceptance of WRS always answers. -/
theorem State.acceptString_eq (s : State) (op : OpCode) (arg : Byte) (str : StringArg) (entry : List Label) :
    s.acceptString op arg str entry =
      .next (if s.pc = [] then { s with op := op, arg := arg, sidx := 0, str := Str.ofArg str, pc := entry } else s) := by
  unfold State.acceptString
  split <;> simp_all

/-! ## Operands (R85) -/

/-- The second SN of a byte write sends the low nibble. -/
theorem highNibble_shiftedForLow (b : Byte) : highNibble (shiftedForLow b) = lowNibble b := by
  unfold highNibble shiftedForLow lowNibble
  ext i hi
  simp only [BitVec.getElem_extractLsb', BitVec.getLsbD_shiftLeft]
  have h1 : 4 + i < 8 := by omega
  simp [h1]

end Sys2Proof.Machine
end

