-- ==== Sys2Proof/Laws/PerInstr.lean ====
section
/-! SUPPORT. One fact for each instruction: its encoding has the width and the fixed bits that its row of
spec/opcode_table.json gives (R81, R88, R90). The family is `FixedBits`. -/

namespace Sys2Proof.Laws.FixedBits

/-- What a row of the opcode table fixes: how many bits the word has, and bits `hi` down to `lo` of it. -/
structure Row where
  width : Nat
  hi : Nat
  lo : Nat
  value : Nat
  deriving DecidableEq, Repr

/-- The row of a command code: 11 bits, the code in bits 10:8 (R81, R90). -/
def Row.command (code : Nat) : Row := { width := 11, hi := 10, lo := 8, value := code }

/-- The row of an LCD instruction byte: 8 bits, all fixed (R88). -/
def Row.lcdByte (b : Nat) : Row := { width := 8, hi := 7, lo := 0, value := b }

/-- The row of each instruction, copied from the opcode table. -/
def row : Instr → Row
  | .init _ => Row.command 0
  | .wri _ => Row.command 1
  | .wrc _ => Row.command 2
  | .wrs _ _ => Row.command 3
  | .setcur _ => Row.command 4
  | .poll _ => Row.command 5
  | .pwr _ => Row.command 6
  | .nop _ => Row.command 7
  | .lcdClear => Row.lcdByte 0x01
  | .lcdHome => Row.lcdByte 0x02
  | .lcdEntryMode => Row.lcdByte 0x06
  | .lcdDisplayOff => Row.lcdByte 0x08
  | .lcdDisplayOn => Row.lcdByte 0x0C
  | .lcdFunctionSet4bit => Row.lcdByte 0x28
  | .lcdFunctionReset => Row.lcdByte 0x30
  | .lcdSetCursorRow1 => Row.lcdByte 0x80
  | .lcdSetCursorRow2 => Row.lcdByte 0xC0

/-- The bits of an encoded instruction as one number, and how many they are. -/
def bits : Encoded → Nat × Nat
  | .cmd w _ => (11, w.toNat)
  | .lcd b => (8, b.toNat)

/-- The encoding of `i` has its row's width and fixed bits. -/
def Statement (i : Instr) : Prop :=
  (bits (encode i)).1 = (row i).width ∧
  (bits (encode i)).2 / 2 ^ (row i).lo % 2 ^ ((row i).hi + 1 - (row i).lo) = (row i).value

/-- A word made of a code and an operand has the code in bits 10:8. -/
theorem command_code (op : OpCode) (arg : Byte) : (CmdWord.make op arg).toNat / 2 ^ 8 % 2 ^ (10 + 1 - 8) = op.toNat := by
  have ho : op.toNat < 8 := op.isLt
  have ha : arg.toNat < 256 := arg.isLt
  rw [CmdWord.make_toNat]
  omega

theorem init (arg : Byte) : Statement (.init arg) := ⟨rfl, command_code 0 arg⟩
theorem wri (b : Byte) : Statement (.wri b) := ⟨rfl, command_code 1 b⟩
theorem wrc (b : Byte) : Statement (.wrc b) := ⟨rfl, command_code 2 b⟩
theorem wrs (arg : Byte) (str : StringArg) : Statement (.wrs arg str) := ⟨rfl, command_code 3 arg⟩
theorem setcur (n : Byte) : Statement (.setcur n) := ⟨rfl, command_code 4 n⟩
theorem poll (arg : Byte) : Statement (.poll arg) := ⟨rfl, command_code 5 arg⟩
theorem pwr (arg : Byte) : Statement (.pwr arg) := ⟨rfl, command_code 6 arg⟩
theorem nop (arg : Byte) : Statement (.nop arg) := ⟨rfl, command_code 7 arg⟩
theorem lcdClear : Statement .lcdClear := ⟨rfl, rfl⟩
theorem lcdHome : Statement .lcdHome := ⟨rfl, rfl⟩
theorem lcdEntryMode : Statement .lcdEntryMode := ⟨rfl, rfl⟩
theorem lcdDisplayOff : Statement .lcdDisplayOff := ⟨rfl, rfl⟩
theorem lcdDisplayOn : Statement .lcdDisplayOn := ⟨rfl, rfl⟩
theorem lcdFunctionSet4bit : Statement .lcdFunctionSet4bit := ⟨rfl, rfl⟩
theorem lcdFunctionReset : Statement .lcdFunctionReset := ⟨rfl, rfl⟩
theorem lcdSetCursorRow1 : Statement .lcdSetCursorRow1 := ⟨rfl, rfl⟩
theorem lcdSetCursorRow2 : Statement .lcdSetCursorRow2 := ⟨rfl, rfl⟩

end Sys2Proof.Laws.FixedBits
end

