-- ==== Sys2Proof/Laws/Step.lean ====
section
/-! SUPPORT. What a step can do, said once, and runs of a busy block with the host's inputs set aside. -/

namespace Sys2Proof.Machine

open Sys2Proof.Safety

/-! ## Rows do not look at the host's inputs -/

/-- A row neither reads nor writes the host's inputs (R118: a command offered while busy is not seen). -/
theorem performRow_withHost (l : Label) (s : State) (h : List HostInput) :
    performRow l (s.withHost h) = (performRow l s).withHost h := by
  cases l with
  | sn k => cases k <;> rfl
  | pl k =>
    cases k with
    | p6 =>
      obtain ⟨dOut, d7oe, e, rw, rs, pwr, bf, pc, op, arg, sel, byt, nib, ch, sidx, pollcnt, fault, str, bus, ops,
        pollLimit, host, lcd, d7Draws, resets⟩ := s
      cases d7oe
      · cases lcd <;> rfl
      · rfl
    | p13 =>
      show p13Row (s.withHost h) = (p13Row s).withHost h
      have hv : pollVerdict (s.withHost h).pollLimit (s.withHost h).bf ((s.withHost h).pollcnt + 1) =
          pollVerdict s.pollLimit s.bf (s.pollcnt + 1) := rfl
      unfold p13Row
      rw [hv]
      cases pollVerdict s.pollLimit s.bf (s.pollcnt + 1) <;> rfl
    | p1 | p2 | p3 | p4 | p5 | p7 | p8 | p9 | p10 | p11 | p12 | p14 | p15 | pf1 | pf2 | pf3 => rfl
  | wb k =>
    cases k with
    | w5 =>
      obtain ⟨dOut, d7oe, e, rw, rs, pwr, bf, pc, op, arg, sel, byt, nib, ch, sidx, pollcnt, fault, str, bus, ops,
        pollLimit, host, lcd, d7Draws, resets⟩ := s
      cases sel <;> rfl
    | w1 | w2 | w3 | w4 => rfl
  | wrs k =>
    cases k with
    | s2 =>
      show (if s.ch = 0 then (s.withHost h).ret else (s.withHost h).goTo (.wrs .s3)) =
        (if s.ch = 0 then s.ret else s.goTo (.wrs .s3)).withHost h
      split <;> rfl
    | s1 | s3 | s4 | s5 => rfl
  | c1 =>
    show c1Row (s.withHost h) = (c1Row s).withHost h
    have hv : rowByte (s.withHost h).arg = rowByte s.arg := rfl
    unfold c1Row
    rw [hv]
    cases rowByte s.arg <;> rfl
  | init k => cases k <;> rfl
  | a1 | b1 | q1 | v1 => rfl

/-- The host's inputs as they are change nothing. -/
theorem State.withHost_self (s : State) : s.withHost s.host = s := rfl

/-- A row leaves the host's inputs as they are. -/
theorem performRow_keeps_host (l : Label) (s : State) : (performRow l s).host = s.host := by
  have h := performRow_withHost l s s.host
  rw [State.withHost_self] at h
  have hh := congrArg State.host h
  exact hh

/-! ## One step -/

/-- A step at which reset is asserted (R117 case 1). -/
theorem step_reset (s : State) (h : s.resetAsserted = true) : step s = .next s.tookInput.resetStep := by
  simp only [step, h]

/-- A step of an idle block with no command (R118). -/
theorem step_idle (s : State) (hr : s.resetAsserted = false) (hp : s.pc = []) (ho : s.offered = none) :
    step s = .next s.tookInput := by
  simp only [step, hr, hp, ho]

/-- A step of an idle block with a command is the command's acceptance (R118). -/
theorem step_accepts (s : State) (o : Offer) (hr : s.resetAsserted = false) (hp : s.pc = [])
    (ho : s.offered = some o) : step s = exec (fetchOffered o) s.tookInput := by
  simp only [step, hr, hp, ho]

/-- A step of a busy block performs the row of the top label (R117 case 3). -/
theorem step_busy (s : State) (l : Label) (rest : List Label) (hr : s.resetAsserted = false) (hp : s.pc = l :: rest) :
    step s = .next ((performRow l s).withHost (hostAfterBusy s.host)) := by
  have ht : s.tookInput = s.withHost (hostAfterBusy s.host) := by simp only [State.tookInput, hp]
  simp only [step, hr, hp]
  rw [ht, performRow_withHost]

/-- `noReset` for at least one step means no reset now, and no reset at the later steps. -/
theorem noReset_succ (n : Nat) (h : List HostInput) (hn : noReset (n + 1) h = true) :
    (∀ rest, h ≠ .reset :: rest) ∧ noReset n (hostAfterBusy h) = true := by
  match h, hn with
  | [], _ => exact ⟨by simp, by cases n <;> rfl⟩
  | .keep o :: rest, _ => exact ⟨by simp, by cases n <;> rfl⟩
  | .quiet :: rest, hn => exact ⟨by simp, hn⟩
  | .offer o :: rest, hn => exact ⟨by simp, hn⟩

/-- Reset is asserted exactly when the host's input of the step says so. -/
theorem resetAsserted_eq_false (s : State) (h : ∀ rest, s.host ≠ .reset :: rest) : s.resetAsserted = false := by
  unfold State.resetAsserted
  split
  · next rest heq => exact absurd heq (h rest)
  · rfl

/-! ## Runs of a busy block -/

/-- One step, then the others. -/
theorem run_succ (n : Nat) (s t : State) (h : step s = .next t) : run (n + 1) s = run n t := by
  simp only [run, Host.Core.run, Sys2Proof.core, h]

/-- No step at all. -/
theorem run_zero (s : State) : run 0 s = .next s := rfl

/-- `rows` one row at a time. -/
theorem rows_succ (n : Nat) (s : State) (l : Label) (rest : List Label) (hp : s.pc = l :: rest) :
    rows (n + 1) s = rows n (performRow l s) := by
  simp only [rows, hp]

/-- The rows do not look at the host's inputs. -/
theorem rows_withHost (n : Nat) : ∀ (s : State) (h : List HostInput),
    rows n (s.withHost h) = (rows n s).withHost h := by
  induction n with
  | zero => intro s h; rfl
  | succ n ih =>
    intro s h
    have hpc : (s.withHost h).pc = s.pc := rfl
    cases hp : s.pc with
    | nil => simp only [rows, hpc, hp]
    | cons l rest => simp only [rows, hpc, hp, performRow_withHost, ih]

/-- The block is busy at each of the first `n` rows. -/
def busyFor : Nat → State → Prop
  | 0, _ => True
  | n + 1, s => ∃ l rest, s.pc = l :: rest ∧ busyFor n (performRow l s)

/-- `busyFor` does not look at the host's inputs. -/
theorem busyFor_withHost (n : Nat) : ∀ (s : State) (h : List HostInput), busyFor n s → busyFor n (s.withHost h) := by
  induction n with
  | zero => intro s h _; trivial
  | succ n ih =>
    intro s h ⟨l, rest, hp, hb⟩
    refine ⟨l, rest, hp, ?_⟩
    rw [performRow_withHost]
    exact ih _ _ hb

/-- A run of `n` steps of a block busy throughout is `n` rows, beside the host's inputs used up. -/
theorem run_busy (n : Nat) : ∀ s : State, busyFor n s → noReset n s.host = true →
    run n s = .next ((rows n s).withHost (hostAfter n s.host)) := by
  induction n with
  | zero => intro s _ _; rfl
  | succ n ih =>
    intro s ⟨l, rest, hp, hb⟩ hn
    obtain ⟨hr, hn'⟩ := noReset_succ n s.host hn
    rw [run_succ n s _ (step_busy s l rest (resetAsserted_eq_false s hr) hp),
      ih _ (busyFor_withHost n _ (hostAfterBusy s.host) hb) hn', rows_withHost, rows_succ n s l rest hp]
    rfl

/-- Runs compose: `n` steps that answer `t`, then `m` more. -/
theorem run_add (n m : Nat) : ∀ s t : State, run n s = .next t → run (n + m) s = run m t := by
  induction n with
  | zero => intro s t h; cases h; rw [Nat.zero_add]
  | succ n ih =>
    intro s t h
    rw [Nat.succ_add]
    cases hs : step s with
    | next u =>
      rw [run_succ n s u hs] at h
      rw [run_succ (n + m) s u hs]
      exact ih u t h
    | fault r => exact nomatch r
    | refused r =>
      have hr : run (n + 1) s = .refused r := by simp only [run, Host.Core.run, Sys2Proof.core, hs]
      rw [hr] at h
      exact nomatch h

/-- The host's inputs used up one after another. -/
theorem hostAfter_add (n m : Nat) : ∀ h, hostAfter (n + m) h = hostAfter m (hostAfter n h) := by
  induction n with
  | zero => intro h; rw [Nat.zero_add]; rfl
  | succ n ih => intro h; rw [Nat.succ_add]; exact ih _

/-- No reset over a longer run means none over each part. -/
theorem noReset_add (n m : Nat) : ∀ h, noReset (n + m) h = true →
    noReset n h = true ∧ noReset m (hostAfter n h) = true := by
  induction n with
  | zero => intro h hn; rw [Nat.zero_add] at hn; exact ⟨by cases h <;> rfl, hn⟩
  | succ n ih =>
    intro h hn
    rw [Nat.succ_add] at hn
    obtain ⟨hr, hn'⟩ := noReset_succ (n + m) h hn
    obtain ⟨h1, h2⟩ := ih _ hn'
    refine ⟨?_, h2⟩
    match h, hr, h1 with
    | [], _, _ => rfl
    | .keep o :: rest, _, _ => rfl
    | .quiet :: rest, _, h1 => exact h1
    | .offer o :: rest, _, h1 => exact h1
    | .reset :: rest, hr, _ => exact absurd rfl (hr rest)

/-- Every instruction answers a next state (R117: no row or command is stuck or refused). -/
theorem exec_answers (i : Instr) (s : State) : ∃ t, exec i s = .next t := by
  cases i <;> exact ⟨_, by first | exact State.accept_eq _ _ _ _ | exact State.acceptString_eq _ _ _ _ _⟩

end Sys2Proof.Machine
end

