-- ==== Sys2Proof/Laws/Runs.lean ====
section
/-! SUPPORT. Rows and runs put together from parts, the LCD's answers part by part, and the premises of R71 and R77
carried along a run. -/

namespace Sys2Proof.Machine

open Sys2Proof.Safety

/-! ## Rows part by part -/

/-- `n` rows, then `m` more. -/
theorem rows_add (n m : Nat) : ∀ s, rows (n + m) s = rows m (rows n s) := by
  induction n with
  | zero => intro s; rw [Nat.zero_add]; rfl
  | succ n ih =>
    intro s
    rw [Nat.succ_add]
    cases hp : s.pc with
    | nil =>
      have hstay : ∀ k, rows k s = s := by intro k; cases k <;> simp only [rows, hp]
      rw [hstay, hstay, hstay]
    | cons l rest => rw [rows_succ _ s l rest hp, rows_succ _ s l rest hp, ih]

/-- Busy over both parts is busy over the whole. -/
theorem busyFor_add (n m : Nat) : ∀ s, busyFor n s → busyFor m (rows n s) → busyFor (n + m) s := by
  induction n with
  | zero => intro s _ h; rw [Nat.zero_add]; exact h
  | succ n ih =>
    intro s ⟨l, rest, hp, hb⟩ h
    rw [Nat.succ_add]
    rw [rows_succ n s l rest hp] at h
    exact ⟨l, rest, hp, ih _ hb h⟩

/-- Busy over the whole is busy over both parts. -/
theorem busyFor_split (n m : Nat) : ∀ s, busyFor (n + m) s → busyFor n s ∧ busyFor m (rows n s) := by
  induction n with
  | zero => intro s h; rw [Nat.zero_add] at h; exact ⟨trivial, h⟩
  | succ n ih =>
    intro s h
    rw [Nat.succ_add] at h
    obtain ⟨l, rest, hp, hb⟩ := h
    obtain ⟨h1, h2⟩ := ih _ hb
    rw [rows_succ n s l rest hp]
    exact ⟨⟨l, rest, hp, h1⟩, h2⟩

/-- A block busy for `n` rows holds a label at each of them. -/
theorem busyFor_pc (n m : Nat) (s : State) (h : busyFor n s) (hm : m < n) : (rows m s).pc ≠ [] := by
  obtain ⟨d, rfl⟩ := Nat.exists_eq_add_of_lt hm
  rw [Nat.add_assoc] at h
  obtain ⟨l, rest, hp, _⟩ := (busyFor_split m (d + 1) s h).2
  simp [hp]

/-- Each part of a busy run is a run of its rows. -/
theorem run_busy_le (n m : Nat) (s : State) (h : busyFor n s) (hn : noReset n s.host = true) (hm : m ≤ n) :
    run m s = .next ((rows m s).withHost (hostAfter m s.host)) := by
  obtain ⟨d, rfl⟩ := Nat.exists_eq_add_of_le hm
  exact run_busy m s (busyFor_split m d s h).1 (noReset_add m d _ hn).1

/-- A row leaves the fault flag as it was, or empties `pc` (R117, R221). -/
theorem performRow_fault (l : Label) (s : State) : (performRow l s).fault = s.fault ∨ (performRow l s).pc = [] := by
  cases l with
  | sn k => cases k <;> exact .inl rfl
  | pl k =>
    cases k with
    | p6 =>
      left
      show ((State.sampleBusy s).goTo (.pl .p7)).fault = s.fault
      unfold State.sampleBusy State.readLevelD7 State.tookDraw
      cases s.d7oe <;> cases s.lcd <;> rfl
    | p13 =>
      left
      show (p13Row s).fault = s.fault
      unfold p13Row
      split <;> rfl
    | pf3 => exact .inr rfl
    | p1 | p2 | p3 | p4 | p5 | p7 | p8 | p9 | p10 | p11 | p12 | p14 | p15 | pf1 | pf2 => exact .inl rfl
  | wb k =>
    cases k with
    | w5 =>
      left
      show (wbRow .w5 s).fault = s.fault
      simp only [wbRow]
      split <;> rfl
    | w1 | w2 | w3 | w4 => exact .inl rfl
  | wrs k =>
    cases k with
    | s2 =>
      left
      show (wrsRow .s2 s).fault = s.fault
      simp only [wrsRow]
      split <;> rfl
    | s1 | s3 | s4 | s5 => exact .inl rfl
  | c1 =>
    left
    show (c1Row s).fault = s.fault
    unfold c1Row
    split <;> rfl
  | init k => cases k <;> exact .inl rfl
  | a1 | b1 | q1 | v1 => exact .inl rfl

/-- No fault is recorded as long as `pc` holds a label. -/
theorem rows_fault (n : Nat) : ∀ s, busyFor n s → (rows n s).pc ≠ [] → (rows n s).fault = s.fault := by
  induction n with
  | zero => intro s _ _; rfl
  | succ n ih =>
    intro s ⟨l, rest, hp, hb⟩ hne
    rw [rows_succ n s l rest hp] at hne ⊢
    rw [ih _ hb hne]
    rcases performRow_fault l s with h | h
    · exact h
    · cases n with
      | zero => exact absurd h hne
      | succ n => obtain ⟨l', r', hp', _⟩ := hb; exact absurd (h.symm.trans hp') (by simp)

/-! ## The LCD's answers part by part -/

/-- Using no answer changes nothing. -/
@[simp] theorem afterDraws_zero (s : State) : afterDraws 0 s = s := by
  simp [afterDraws]

/-- Using `n` answers and then `m`. -/
theorem afterDraws_add (n m : Nat) (s : State) : afterDraws m (afterDraws n s) = afterDraws (n + m) s := by
  simp only [afterDraws, List.drop_drop, List.length_drop, State.mk.injEq, true_and, and_true]
  omega

/-- After `n` answers the next ones move up by `n`. -/
theorem drawAt_afterDraws (n i : Nat) (s : State) : (afterDraws n s).drawAt i = s.drawAt (n + i) := by
  unfold State.drawAt afterDraws
  simp only [List.getElem?_drop, List.length_drop]
  cases h : s.lcd[n + i]? with
  | some b => rfl
  | none =>
    have hl : s.lcd.length ≤ n + i := by simpa using h
    show Config.d7Draw _ = Config.d7Draw _
    congr 1
    omega

/-- Answers in two parts. -/
theorem answers_append (s : State) (as bs : List Level) :
    Answers s (as ++ bs) ↔ Answers s as ∧ Answers (afterDraws as.length s) bs := by
  constructor
  · intro h
    refine ⟨fun i hi => ?_, fun i hi => ?_⟩
    · rw [h i (by simp only [List.length_append]; omega), List.getElem_append_left hi]
    · rw [drawAt_afterDraws, h (as.length + i) (by simp only [List.length_append]; omega),
        List.getElem_append_right (Nat.le_add_right _ _)]
      simp
  · intro ⟨ha, hb⟩ i hi
    rw [List.length_append] at hi
    by_cases hlt : i < as.length
    · rw [List.getElem_append_left hlt, ha i hlt]
    · have h := hb (i - as.length) (by omega)
      rw [drawAt_afterDraws, Nat.add_sub_cancel' (Nat.le_of_not_lt hlt)] at h
      rw [List.getElem_append_right (Nat.le_of_not_lt hlt), h]

/-- The answers of one poll, sample by sample. -/
theorem answers_busyThenReady (s : State) (k : Nat) :
    Answers s (busyThenReady k) ↔ (∀ i, i < k → s.drawAt i = true) ∧ s.drawAt k = false := by
  have hlen : (busyThenReady k).length = k + 1 := by simp [busyThenReady]
  have hbusy : ∀ i (h : i < (busyThenReady k).length), i < k → (busyThenReady k)[i] = true := by
    intro i h hi
    simp [busyThenReady, List.getElem_append_left, hi]
  have hready : ∀ h : k < (busyThenReady k).length, (busyThenReady k)[k] = false := by
    intro h
    simp [busyThenReady]
  constructor
  · intro h
    exact ⟨fun i hi => by rw [h i (by omega), hbusy i (by omega) hi], by rw [h k (by omega), hready]⟩
  · intro ⟨hb, hr⟩ i hi
    rcases Nat.lt_or_ge i k with hlt | hge
    · rw [hb i hlt, hbusy i hi hlt]
    · obtain rfl : i = k := by omega
      rw [hr, hready hi]

/-! ## Premises along a run -/

/-- What is premised of every poll of a run holds of the rest of the run (R71). -/
theorem eventuallyReady_of_run (n : Nat) (s t : State) (h : EventuallyReady s) (hr : run n s = .next t) :
    EventuallyReady t := fun m u rest hm hp => h (n + m) u rest ((run_add n m s t hr).trans hm) hp

/-- The poll that starts where a run of `n` steps has led has a sample of 0 (R71). -/
theorem pollReady_of_run (n : Nat) (s t : State) (rest : List Label) (h : EventuallyReady s) (hr : run n s = .next t)
    (hp : t.pc = .pl .p1 :: rest) : PollReady t := h n t rest hr hp

/-- The first sample of 0 in a poll that has one: the busy samples before it are below any limit (R71, R131). -/
theorem pollReady_busyThenReady (s : State) (h : PollReady s) :
    ∃ k, Answers s (busyThenReady k) ∧ ∀ L, s.pollLimit = some L → k < L := by
  obtain ⟨j, hj, hl⟩ := h
  have hex : ∃ j, s.drawAt j = false := ⟨j, hj⟩
  refine ⟨Nat.find hex, (answers_busyThenReady s _).mpr ⟨fun i hi => ?_, Nat.find_spec hex⟩, fun L hL => ?_⟩
  · simpa using Nat.find_min hex hi
  · exact Nat.lt_of_le_of_lt (Nat.find_min' hex hj) (hl L hL)

/-- A host that never asserts reset asserts none in any number of steps (R77). -/
theorem noReset_of_never (n : Nat) : ∀ h : List HostInput, (∀ x ∈ h, x ≠ .reset) → noReset n h = true := by
  induction n with
  | zero => intro h _; cases h <;> rfl
  | succ n ih =>
    intro h hx
    match h, hx with
    | [], _ => rfl
    | .keep o :: rest, _ => rfl
    | .quiet :: rest, hx => exact ih rest (fun y hy => hx y (List.mem_cons_of_mem _ hy))
    | .offer o :: rest, hx => exact ih rest (fun y hy => hx y (List.mem_cons_of_mem _ hy))
    | .reset :: rest, hx => exact absurd rfl (hx _ List.mem_cons_self)

end Sys2Proof.Machine
end

