-- ==== Sys2Proof/Tests/Slice0.lean ====
section
/-! SUPPORT. Tests, expected results from the spec's tables, examples and vectors, and a witness for the hypotheses of
each statement of Certificates/Slice0/Obligations.lean that has some. -/

namespace Sys2Proof.Tests

open Sys2Proof.Machine Sys2Proof.Safety

/-- The next state an outcome holds, if it is one. -/
def nextOf : Host.Outcome State Fault Refusal → Option State
  | .next s => some s
  | .fault _ => none
  | .refused _ => none

/-- The reset state with another stack of labels. -/
def at_ (pc : List Label) : State := { State.reset with pc := pc }

/-- The reset state inside a poll, the lines as they are at that label. -/
def inPoll (l : PlLabel) : State :=
  { at_ [.pl l] with e := eAt [.pl l], rw := rwAt [.pl l], d7oe := d7oeAt [.pl l] }

/-- The command word of a code and an operand with no string. -/
def word (w : CmdWord) : Offer := { word := w, str := StringArg.empty }

/-! ## Well-formedness -/

/-- A tail of repeated zero bytes is not how a listed string is written. -/
theorem test_wellFormed_refuses_repeated_zero : (Instr.wrs 0 ⟨[], .repeats 0⟩).wellFormed = false := by decide

/-- The three ways a tail is written. -/
theorem test_wellFormed_accepts_tails :
    (Instr.wrs 0 ⟨[0x41], .zeros⟩).wellFormed = true ∧ (Instr.wrs 0 ⟨[], .repeats 1⟩).wellFormed = true ∧
      (Instr.wrs 0 ⟨[], .free 0⟩).wellFormed = true := by decide

/-! ## Decode: words written bit by bit from 30_encoding.md sections 2, 4 and 5 (code in bits 10:8, operand in 7:0) -/

theorem test_decode_init : decodeCommand 0b000_00000000 StringArg.empty = .init 0b00000000 := by decide
theorem test_decode_wri : decodeCommand 0b001_00101000 StringArg.empty = .wri 0b00101000 := by decide
theorem test_decode_wrc : decodeCommand 0b010_01000001 StringArg.empty = .wrc 0b01000001 := by decide
theorem test_decode_wrs : decodeCommand 0b011_10000001 ⟨[0x41], .zeros⟩ = .wrs 0b10000001 ⟨[0x41], .zeros⟩ := by decide
theorem test_decode_setcur : decodeCommand 0b100_00000010 StringArg.empty = .setcur 0b00000010 := by decide
theorem test_decode_poll : decodeCommand 0b101_00000000 StringArg.empty = .poll 0b00000000 := by decide
theorem test_decode_pwr : decodeCommand 0b110_11111110 StringArg.empty = .pwr 0b11111110 := by decide
theorem test_decode_nop : decodeCommand 0b111_10100101 StringArg.empty = .nop 0b10100101 := by decide
theorem test_decode_lcdClear : decode (.lcd 0b00000001) = .ok .lcdClear := rfl
theorem test_decode_lcdHome : decode (.lcd 0b00000010) = .ok .lcdHome := rfl
theorem test_decode_lcdEntryMode : decode (.lcd 0b00000110) = .ok .lcdEntryMode := rfl
theorem test_decode_lcdDisplayOff : decode (.lcd 0b00001000) = .ok .lcdDisplayOff := rfl
theorem test_decode_lcdDisplayOn : decode (.lcd 0b00001100) = .ok .lcdDisplayOn := rfl
theorem test_decode_lcdFunctionSet4bit : decode (.lcd 0b00101000) = .ok .lcdFunctionSet4bit := rfl
theorem test_decode_lcdFunctionReset : decode (.lcd 0b00110000) = .ok .lcdFunctionReset := rfl
theorem test_decode_lcdSetCursorRow1 : decode (.lcd 0b10000000) = .ok .lcdSetCursorRow1 := rfl
theorem test_decode_lcdSetCursorRow2 : decode (.lcd 0b11000000) = .ok .lcdSetCursorRow2 := rfl

/-- A byte that is no row of the table is refused by name. -/
theorem test_decode_refuses_other_byte : decode (.lcd 0x38) = .error (.notAnLcdInstruction 0x38) := rfl

/-- A number with a bit above the word is refused. -/
theorem test_decode_refuses_wide : decodeTableWord 16 0x800 = none ∧ decodeTableWord 8 0x101 = none := by decide

/-! ## One step (vectors and examples of 95_test_vectors.md, 41_nibble_engine.md, 42_byte_writers.md, 43_initialize.md) -/

/-- Reset memory is canonical, and so is a bound string: "A", 0, "B" lists no zero byte. -/
theorem test_memory_canonical :
    State.reset.str.wf = true ∧ Memory.ofBytes [0x41, 0x00, 0x42] = [(0, 0x41), (2, 0x42)] := by decide

/-- A word on the port of an idle block is accepted at the next step. -/
theorem test_fetch_word_runs :
    (nextOf (step (State.reset.withFetchWord 16 0x128))).map (fun t => (t.op, t.arg, t.pc)) = some (1, 0x28, [.a1]) := by
  decide

/-- A kept word stays on the port while the block is busy. -/
theorem test_keep_is_held :
    (nextOf (step { at_ [.q1] with host := [.keep (word 0x700)] })).map (fun t => (t.pc, t.host)) =
      some ([.pl .p1], [.keep (word 0x700)]) := by decide

/-- INIT: acceptance enters I0. -/
theorem test_init_entry : (nextOf (exec (.init 0xFF) State.reset)).map (fun t => (t.op, t.arg, t.pc)) =
    some (0, 0xFF, [.init .i0]) := by decide

/-- INIT row I6: the sent nibble, then the 200 us wait and its record. -/
theorem test_init_i6 :
    (nextOf (step { at_ [.init .i6] with nib := 0x30 })).map (fun t => (t.bus, t.ops, t.pc)) =
      some ([.wait 200], [.nibbleSend 0x3, .delay 200], [.init .i7]) := by decide

/-- WRI 0x28: row A1 sets WB's operands. -/
theorem test_wri_a1 :
    (nextOf (step { at_ [.a1] with arg := 0x28, sel := true })).map (fun t => (t.sel, t.byt, t.pc)) =
      some (false, 0x28, [.wb .w1]) := by decide

/-- WB row W4: the low nibble is shifted up and the high nibble lost. -/
theorem test_wb_w4 :
    (nextOf (step { at_ [.wb .w4] with byt := 0x28 })).map (fun t => (t.nib, t.pc)) =
      some (0x80, [.sn .n1, .wb .w5]) := by decide

/-- WRC 'A': row B1 selects the data register. -/
theorem test_wrc_b1 :
    (nextOf (step { at_ [.b1] with arg := 0x41 })).map (fun t => (t.sel, t.byt, t.pc)) =
      some (true, 0x41, [.wb .w1]) := by decide

/-- SN row N1: bits 7:4 go on the lines. -/
theorem test_sn_n1 :
    (nextOf (step { at_ [.sn .n1, .wb .w4] with nib := 0x3F })).map (fun t => (t.dOut, t.bus)) =
      some (0x3, [.data 0x3]) := by decide

/-- WRS: acceptance binds the string and clears the index. -/
theorem test_wrs_entry :
    (nextOf (exec (.wrs 0 ⟨[0x41, 0x42], .zeros⟩) { State.reset with sidx := 7 })).map
      (fun t => (t.sidx, t.str.read 1, t.str.read 2, t.pc)) = some (0, 0x42, 0, [.wrs .s1]) := by decide

/-- WRS row S2: the terminator ends the command before any poll. -/
theorem test_wrs_s2_terminator :
    (nextOf (step { at_ [.wrs .s2] with ch := 0 })).map (fun t => (t.pc, t.bus)) = some ([], []) := by decide

/-- SETCUR 2: byte 0xC0. -/
theorem test_setcur_row2 :
    (nextOf (step { at_ [.c1] with arg := 2 })).map (fun t => (t.sel, t.byt, t.pc)) =
      some (false, 0xC0, [.wb .w1]) := by decide

/-- SETCUR 0: nothing, the command ends. -/
theorem test_setcur_row0 :
    (nextOf (step { at_ [.c1] with arg := 0, byt := 0x55 })).map (fun t => (t.byt, t.pc, t.bus)) =
      some (0x55, [], []) := by decide

/-- POLL row P6: the sample is the LCD's answer. -/
theorem test_poll_p6 :
    (nextOf (step { inPoll .p6 with lcd := [true] })).map (fun t => (t.bf, t.bus, t.lcd)) =
      some (true, [.sample true], []) := by decide

/-- POLL row P13 at the limit: busy, `L = 3`, the third read. -/
theorem test_poll_p13_limit :
    (nextOf (step { inPoll .p13 with bf := true, pollcnt := 2, pollLimit := some 3 })).map (fun t => (t.pollcnt, t.pc)) =
      some (3, [.pl .pf1]) := by decide

/-- Row PF3 empties `pc` whatever command called the poll. -/
theorem test_fault_pf3 :
    (nextOf (step { at_ [.pl .pf3, .init .i11] with pollcnt := 3 })).map (fun t => (t.fault, t.pc, t.ops)) =
      some (true, [], [.fault .controllerUnresponsive 3]) := by decide

/-- PWR 0xFE: only bit 0 counts, the event is emitted though the level stays. -/
theorem test_pwr_bit0 :
    (nextOf (step { at_ [.v1] with arg := 0xFE })).map (fun t => (t.pwr, t.bus, t.pc)) =
      some (false, [.lvl .pwr false], []) := by decide

/-- PWR 0x01: power on. -/
theorem test_pwr_on :
    (nextOf (step { at_ [.v1] with arg := 0x01 })).map (fun t => (t.pwr, t.bus)) =
      some (true, [.lvl .pwr true]) := by decide

/-- NOP 0xA5: accepted, the block stays idle, no event. -/
theorem test_nop :
    (nextOf (exec (.nop 0xA5) State.reset)).map (fun t => (t.op, t.arg, t.pc, t.bus)) = some (7, 0xA5, [], []) := by decide

/-- What acceptance of an LCD instruction byte leaves in `op`, `arg` and `pc`. -/
def latched (i : Instr) : Option (OpCode × Byte × List Label) :=
  (nextOf (exec i State.reset)).map (fun t => (t.op, t.arg, t.pc))

theorem test_lcdClear : latched .lcdClear = some (1, 0x01, [.a1]) := by decide
theorem test_lcdHome : latched .lcdHome = some (1, 0x02, [.a1]) := by decide
theorem test_lcdEntryMode : latched .lcdEntryMode = some (1, 0x06, [.a1]) := by decide
theorem test_lcdDisplayOff : latched .lcdDisplayOff = some (1, 0x08, [.a1]) := by decide
theorem test_lcdDisplayOn : latched .lcdDisplayOn = some (1, 0x0C, [.a1]) := by decide
theorem test_lcdFunctionSet4bit : latched .lcdFunctionSet4bit = some (1, 0x28, [.a1]) := by decide
theorem test_lcdFunctionReset : latched .lcdFunctionReset = some (1, 0x30, [.a1]) := by decide
theorem test_lcdSetCursorRow1 : latched .lcdSetCursorRow1 = some (1, 0x80, [.a1]) := by decide
theorem test_lcdSetCursorRow2 : latched .lcdSetCursorRow2 = some (1, 0xC0, [.a1]) := by decide

/-- Reset wins over a row in progress, with RW read and D7 an input. -/
theorem test_reset_wins :
    (nextOf (step { inPoll .p5 with host := [.reset] })).map (fun t => (t.pc, t.e, t.rw, t.d7oe, t.resets)) =
      some ([], false, false, true, 1) := by decide

/-! ## Witnesses: hypotheses of the statements are met, at boundary values where a statement has clauses -/

theorem witness_DecodeEncodeIsIdentity : (Instr.wrs 0xFF ⟨[0x41, 0x00], .repeats 1⟩).wellFormed = true := by decide

theorem witness_EncodeDecodeGivesCommandWordBack : CmdWord.opField 0x3FF = 3 := by decide

theorem witness_LcdByteDecodesOnlyToItsOwnRow :
    decode (.lcd 0xC0) = .ok .lcdSetCursorRow2 ∧
      (0xC0 : Byte) ∈ [(0x01 : Byte), 0x02, 0x06, 0x08, 0x0C, 0x28, 0x30, 0x80, 0xC0] ∧
      ∀ b ∈ [(0x00 : Byte), 0x03, 0x81, 0xFF],
        b ∉ [(0x01 : Byte), 0x02, 0x06, 0x08, 0x0C, 0x28, 0x30, 0x80, 0xC0] :=
  ⟨rfl, by decide, by decide⟩

theorem witness_StepRunsOfferedCommand :
    State.reset.pc = [] ∧ (State.withHost State.reset [.offer (word 0x128)]).host = .offer (word 0x128) :: [] ∧
      (State.withHost State.reset [.keep (word 0x128)]).host = .keep (word 0x128) :: [] ∧
      decode (.cmd (word 0x128).word (word 0x128).str) = .ok (.wri 0x28) :=
  ⟨rfl, rfl, rfl, rfl⟩

theorem witness_TableWordsRunAsDecoded :
    decodeTableWord 16 0x7FF = some (.nop 0xFF) ∧ decodeTableWord 8 0xC0 = some .lcdSetCursorRow2 := by decide

theorem witness_IdleWithoutOfferChangesNothing :
    (State.withHost State.reset [.quiet]).pc = [] ∧ (State.withHost State.reset [.quiet]).host = .quiet :: [] ∧
      State.reset.pc = [] ∧ State.reset.host = [] := by decide

theorem witness_BusyBlockSeesNoOffer :
    (State.withHost (at_ [.a1]) [.offer (word 0x128)]).pc ≠ [] ∧
      (∀ rest, [HostInput.offer (word 0x128)] ≠ .reset :: rest) ∧ (∀ rest, ([] : List HostInput) ≠ .reset :: rest) ∧
      ∃ t, step (State.withHost (at_ [.a1]) [.offer (word 0x128)]) = .next t :=
  ⟨by decide, by simp, by simp, _, rfl⟩

theorem witness_PinsChangeOnlyWithTheirEvent :
    (∀ rest, (at_ [.v1]).host ≠ .reset :: rest) ∧
      ∃ t, step { at_ [.v1] with arg := 1 } = .next t ∧ t.pwr ≠ (at_ [.v1]).pwr :=
  ⟨by simp [at_, State.reset, State.afterReset], _, rfl, by decide⟩

theorem witness_ResetWinsOverEverything :
    (State.withHost (inPoll .p5) [.reset, .quiet]).host = .reset :: [.quiet] := rfl

theorem witness_AcceptanceLatchesCommandAndEntersItsTable : State.reset.pc = [] := rfl

theorem witness_BoundStringReadsAsGiven :
    State.reset.pc = [] ∧ (∃ t, exec (.wrs 0 ⟨[0x41], .zeros⟩) State.reset = .next t) ∧
      (∃ t, exec (.wrs 0 ⟨[0x41], .repeats 2⟩) State.reset = .next t) ∧
      (∃ t, exec (.wrs 0 ⟨[0x41], .free 3⟩) State.reset = .next t) ∧
      0 < (StringArg.mk [0x41] .zeros).bytes.length ∧ (StringArg.mk [0x41] .zeros).bytes.length ≤ 1 :=
  ⟨rfl, ⟨_, rfl⟩, ⟨_, rfl⟩, ⟨_, rfl⟩, by decide, by decide⟩

theorem witness_AcceptanceFrame :
    (∃ t, exec (.pwr 1) State.reset = .next t) ∧ (∃ t, exec (.pwr 1) (at_ [.a1]) = .next t) ∧
      ∀ a str, Instr.pwr 1 ≠ .wrs a str :=
  ⟨⟨_, rfl⟩, ⟨_, rfl⟩, by simp⟩

theorem witness_SendNibbleMakesOneWriteStrobe :
    (at_ [.sn .n1, .wb .w4]).pc = .sn .n1 :: [.wb .w4] ∧ noReset 5 (at_ [.sn .n1, .wb .w4]).host = true ∧
      noReset 5 [.quiet, .offer (word 0), .quiet, .quiet, .quiet, .reset] = true ∧
      noReset 5 [.quiet, .keep (word 0), .reset] = true := by decide

theorem witness_NibbleBitsLieOnTheirLines : (at_ [.sn .n1]).d7oe = true := by decide

theorem witness_ByteWriterSendsHighThenLowNibble :
    (at_ [.wb .w1, .wrs .s5]).pc = .wb .w1 :: [.wrs .s5] ∧ noReset 15 (at_ [.wb .w1, .wrs .s5]).host = true := by decide

/-- The poll at P4 with a script, a count and a limit, for the clauses of one iteration. -/
def iteration (b : Level) (cnt : Nat) (limit : Option Nat) : State :=
  { inPoll .p4 with lcd := [b], pollcnt := cnt, pollLimit := limit }

theorem witness_PollIterationIsOneWholeReadFrame :
    (∀ b cnt limit, (iteration b cnt limit).pc = .pl .p4 :: [] ∧ (iteration b cnt limit).d7oe = false ∧
      noReset 10 (iteration b cnt limit).host = true) ∧
    (iteration false 0 none).drawAt 0 = false ∧
    (iteration true 0 none).drawAt 0 = true ∧ (iteration true 0 none).pollLimit = none ∧
    (iteration true 0 (some 1)).drawAt 0 = true ∧ (iteration true 0 (some 1)).pollLimit = some 1 ∧
      1 ≤ (iteration true 0 (some 1)).pollcnt + 1 ∧
    (iteration true 0 (some 2)).drawAt 0 = true ∧ (iteration true 0 (some 2)).pollLimit = some 2 ∧
      (iteration true 0 (some 2)).pollcnt + 1 < 2 ∧
    (inPoll .p4).lineView.rw = true :=
  ⟨fun _ _ _ => ⟨rfl, rfl, rfl⟩, rfl, rfl, rfl, rfl, rfl, by decide, rfl, rfl, by decide, rfl⟩

/-- A poll about to start, with scripted answers and a limit. -/
def polling (lcd : List Level) (limit : Option Nat) : State := { inPoll .p1 with lcd := lcd, pollLimit := limit }

/-- `k = 0`, and `k = 1` with the least limit that lets it return. -/
theorem witness_PollReturnsAfterFirstReadySample :
    (polling [false] none).pc = .pl .p1 :: [] ∧ (polling [false] none).drawAt 0 = false ∧
      (polling [true, false] (some 2)).pc = .pl .p1 :: [] ∧
      (∀ i, i < 1 → (polling [true, false] (some 2)).drawAt i = true) ∧
      (polling [true, false] (some 2)).drawAt 1 = false ∧
      (∀ L, (polling [true, false] (some 2)).pollLimit = some L → 1 < L) ∧
      noReset 25 (polling [true, false] (some 2)).host = true :=
  ⟨rfl, rfl, rfl, by decide, rfl, by intro L h; cases h; decide, rfl⟩

theorem witness_BusyControllerBlocksPollForEver :
    (polling [true, true] none).pc = .pl .p1 :: [] ∧ (polling [true, true] none).pollLimit = none ∧
      (∀ i, i < 2 → (polling [true, true] none).drawAt i = true) ∧ noReset 23 (polling [true, true] none).host = true :=
  ⟨rfl, rfl, by decide, rfl⟩

theorem witness_UnresponsiveControllerFaultsAtTheLimit :
    (polling [true] (some 1)).pc = .pl .p1 :: [] ∧ (polling [true] (some 1)).pollLimit = some 1 ∧
      (∀ i, i < 1 → (polling [true] (some 1)).drawAt i = true) ∧ noReset 16 (polling [true] (some 1)).host = true :=
  ⟨rfl, rfl, by decide, rfl⟩

/-- The invariant is met at both exits of a poll. -/
theorem witness_PollRestoresTheBus :
    Inv (inPoll .p15) ∧ (inPoll .p15).pc = .pl .p15 :: [] ∧ noReset 1 (inPoll .p15).host = true ∧
      (∃ t, step (inPoll .p15) = .next t) ∧
      Inv { inPoll .pf3 with bf := true, pollLimit := some 1 } ∧ (inPoll .pf3).pc = .pl .pf3 :: [] ∧
      ∃ t, step { inPoll .pf3 with bf := true, pollLimit := some 1 } = .next t :=
  ⟨by constructor <;> decide, rfl, rfl, ⟨_, rfl⟩, by constructor <;> decide, rfl, ⟨_, rfl⟩⟩

/-- The first answer within the limit, and the last one that is. -/
theorem witness_PollEndsWhenEventuallyReady :
    State.reset.pc = [] ∧ PollReady { State.reset with lcd := [true, false] } ∧
      PollReady { State.reset with lcd := [true, false], pollLimit := some 2 } ∧
      NeverReset (State.withHost State.reset [.quiet]) :=
  ⟨rfl, ⟨1, rfl, by intro L h; cases h⟩, ⟨1, rfl, by intro L h; cases h; decide⟩,
    by intro x hx; simp [State.withHost] at hx; simp [hx]⟩

/-- WRI, WRC, the LCD bytes, PWR: an idle block and a host that asserts no reset until the command is done. -/
theorem witness_WriteInstructionCompletes :
    State.reset.pc = [] ∧ noReset 16 (State.withHost State.reset (List.replicate 16 .quiet ++ [.reset])).host = true := by
  decide

theorem witness_WriteCharacterCompletes : State.reset.pc = [] ∧ noReset 16 State.reset.host = true := by decide

theorem witness_LcdBytesCompleteAsInstructionWrites :
    encode .lcdClear = .lcd 0x01 ∧ encode .lcdHome = .lcd 0x02 ∧ encode .lcdEntryMode = .lcd 0x06 ∧
      encode .lcdDisplayOff = .lcd 0x08 ∧ encode .lcdDisplayOn = .lcd 0x0C ∧ encode .lcdFunctionSet4bit = .lcd 0x28 ∧
      encode .lcdFunctionReset = .lcd 0x30 ∧ encode .lcdSetCursorRow1 = .lcd 0x80 ∧
      encode .lcdSetCursorRow2 = .lcd 0xC0 ∧ State.reset.pc = [] ∧ noReset 16 State.reset.host = true := by decide

theorem witness_SetCursorSendsTheRowBase :
    ((1 : Byte) = 1 ∧ (0x80 : Byte) = 0x80) ∧ ((2 : Byte) = 2 ∧ (0xC0 : Byte) = 0xC0) ∧ State.reset.pc = [] ∧
      noReset 16 State.reset.host = true := by decide

/-- The rows on both sides of 1 and 2, and the largest. -/
theorem witness_SetCursorOtherRowsDoNothing :
    (∀ row ∈ [(0 : Byte), 3, 255], row ≠ 1 ∧ row ≠ 2) ∧ State.reset.pc = [] ∧ noReset 1 State.reset.host = true := by
  decide

theorem witness_PollCommandCompletes :
    State.pc { State.reset with lcd := [true, false], pollLimit := some 2 } = [] ∧
      (∀ i, i < 1 → State.drawAt { State.reset with lcd := [true, false], pollLimit := some 2 } i = true) ∧
      State.drawAt { State.reset with lcd := [true, false], pollLimit := some 2 } 1 = false ∧
      (∀ L, some 2 = some L → 1 < L) ∧ noReset 26 State.reset.host = true :=
  ⟨rfl, by decide, rfl, by intro L h; cases h; decide, rfl⟩

theorem witness_PowerCommandSetsTheLine : State.reset.pc = [] ∧ noReset 1 State.reset.host = true := by decide

theorem witness_NopOnlyLatches : State.reset.pc = [] := rfl

/-- WRI and WRC, each with its RS. -/
theorem witness_ByteFrameIsTwoWriteStrobes :
    (Instr.wri 0xA5 = .wri 0xA5 ∧ false = false) ∧ (Instr.wrc 0xA5 = .wrc 0xA5 ∧ true = true) ∧ State.reset.pc = [] ∧
      noReset 16 State.reset.host = true := by decide

/-- A list of answers is what the next draws give when it is the head of the script. -/
theorem answers_script (s : State) (bs rest : List Level) (h : s.lcd = bs ++ rest) : Answers s bs := by
  intro i hi
  simp only [State.drawAt, h, List.getElem?_append_left hi, List.getElem?_eq_getElem hi]

/-- "AB" with one busy read before 'B', past a byte that follows the terminator, and the limit 2. -/
theorem witness_WriteStringWritesUpToTheFirstZero :
    (∀ i (h : i < [((0x41 : Byte), 0), (0x42, 1)].length),
      (Str.ofArg ⟨[0x41, 0x42, 0x00, 0x43], .zeros⟩).read i = [((0x41 : Byte), 0), (0x42, 1)][i].1) ∧
    (∀ c ∈ [((0x41 : Byte), 0), (0x42, 1)], c.1 ≠ 0) ∧
    (Str.ofArg ⟨[0x41, 0x42, 0x00, 0x43], .zeros⟩).read 2 = 0 ∧
    Answers { State.reset with lcd := [false, true, false] }
      ([((0x41 : Byte), 0), (0x42, 1)].flatMap (fun c => busyThenReady c.2)) ∧
    (∀ L, some 2 = some L → ∀ c ∈ [((0x41 : Byte), 0), (0x42, 1)], c.2 < L) ∧
    noReset 82 State.reset.host = true :=
  ⟨by decide, by decide, rfl, answers_script _ _ [] rfl, by intro L h; cases h; decide, rfl⟩

/-- The empty string. -/
theorem witness_WriteStringWritesUpToTheFirstZero_empty :
    (Str.ofArg StringArg.empty).read ([] : List (Byte × Nat)).length = 0 ∧
      Answers State.reset (([] : List (Byte × Nat)).flatMap (fun c => busyThenReady c.2)) ∧
      noReset 2 State.reset.host = true :=
  ⟨rfl, answers_script _ _ [] rfl, rfl⟩

/-- Two characters, the second after one busy read, under the limit 2. -/
theorem witness_UnterminatedStringNeverEnds :
    (at_ [.wrs .s1]).pc = [.wrs .s1] ∧
      (∀ i, i < [0, 1].length → (Str.ofArg ⟨[], .repeats 0x41⟩).read (0 + i) ≠ 0) ∧
      Answers { at_ [.wrs .s1] with lcd := [false, true, false] } ([0, 1].flatMap busyThenReady) ∧
      (∀ L, some 2 = some L → ∀ k ∈ [0, 1], k < L) ∧ noReset 80 (at_ [.wrs .s1]).host = true :=
  ⟨rfl, by decide, answers_script _ _ [] rfl, by intro L h; cases h; decide, rfl⟩

/-- Five polls, the second with one busy read, under the limit 2. -/
theorem witness_InitRunsItsSequence :
    Answers { State.reset with lcd := [false, true, false, false, false, false] }
      ([0, 1, 0, 0, 0].flatMap busyThenReady) ∧
    (∀ L, some 2 = some L → 0 < L ∧ 1 < L ∧ 0 < L ∧ 0 < L ∧ 0 < L) ∧ State.reset.pc = [] ∧
    noReset 200 State.reset.host = true :=
  ⟨answers_script _ _ [] rfl, by intro L h; cases h; decide, rfl, rfl⟩

/-- The same for the strobes of INIT. -/
theorem witness_InitMakesFourteenWriteStrobes :
    Answers { State.reset with lcd := [false, true, false, false, false, false] }
      ([0, 1, 0, 0, 0].flatMap busyThenReady) ∧
    (∀ L, some 2 = some L → 0 < L ∧ 1 < L ∧ 0 < L ∧ 0 < L ∧ 0 < L) ∧ State.reset.pc = [] ∧
    noReset 200 State.reset.host = true := witness_InitRunsItsSequence

/-- The poll's clause; those of WRI, WRC and INIT have the witnesses above. -/
theorem witness_FrameSizesAndLeastTimes :
    State.reset.pc = [] ∧ Answers { State.reset with lcd := [true, false] } (busyThenReady 1) ∧
      (∀ L, some 2 = some L → 1 < L) ∧ noReset 26 State.reset.host = true ∧ noReset 16 State.reset.host = true :=
  ⟨rfl, answers_script _ _ [] rfl, by intro L h; cases h; decide, rfl, rfl⟩

/-- A step of an idle block with a NOP on the port, as a run of that command. -/
theorem test_nop_run :
    ∃ u, GoodRun (word 0x700) (State.withHost State.reset [.offer (word 0x700)]) 1 u :=
  ⟨_, ⟨rfl, rfl, rfl, ⟨by decide, rfl⟩, rfl, by intro m t h0 h1; omega⟩, rfl⟩

/-- The invariant is met at idle, inside a strobe, inside a poll and deep in INIT, and each of these states steps. -/
theorem witness_StepKeepsInvariant :
    Inv State.reset ∧ Inv { at_ [.sn .n3, .wb .w4, .init .i12] with e := true } ∧ Inv (inPoll .p5) ∧
      ∃ t, step (inPoll .p5) = .next t :=
  ⟨by constructor <;> decide, by constructor <;> decide, by constructor <;> decide, _, rfl⟩

theorem witness_StackIsAtMostThreeDeep : Inv { at_ [.sn .n3, .wb .w4, .init .i12] with e := true } := by
  constructor <;> decide

theorem witness_BusAtRestWhenIdleAndNoContentionOnD7 :
    Inv State.reset ∧ State.reset.pc = [] ∧ Inv (inPoll .p5) ∧ (inPoll .p5).rw = true ∧ (inPoll .p5).e = true :=
  ⟨by constructor <;> decide, rfl, by constructor <;> decide, rfl, rfl⟩

theorem witness_DirectionIsReadOnlyInsideThePoll :
    Inv (inPoll .p4) ∧ (inPoll .p4).rw = true ∧ Label.pl .p15 ∉ [.pl .p3, .pl .p14, .pl .pf1, .wb .w2, .init .i1] ∧
      Label.pl .p14 ∈ [Label.pl .p14, .pl .pf1, .wb .w2, .init .i1] :=
  ⟨by constructor <;> decide, rfl, by decide, by decide⟩

/-- The first and the last label with D7 an input. -/
theorem witness_D7IsInputOnlyInsideThePoll :
    Inv (inPoll .p2) ∧ (inPoll .p2).d7oe = false ∧ Inv (inPoll .p15) ∧ (inPoll .p15).d7oe = false ∧
      Inv State.reset ∧ State.reset.pc = [] ∧ Label.pl .p14 ∉ [.pl .p1, .pl .p15, .pl .pf2] :=
  ⟨by constructor <;> decide, rfl, by constructor <;> decide, rfl, by constructor <;> decide, rfl, by decide⟩

theorem witness_EnableIsHighOnlyInsideAStrobe :
    Inv (inPoll .p7) ∧ (inPoll .p7).e = true ∧
      Label.sn .n3 ∉ [.sn .n2, .sn .n4, .pl .p4, .pl .p7, .pl .p9, .pl .p11] ∧
      Label.pl .p9 ∈ [Label.sn .n2, .pl .p4, .pl .p9] ∧ Label.pl .p11 ∈ [Label.sn .n4, .pl .p7, .pl .p11] :=
  ⟨by constructor <;> decide, rfl, by decide, by decide, by decide⟩

theorem witness_WriterOperandsAreWrittenByCallersOnly :
    Label.wrs .s5 ∉ [.a1, .b1, .wrs .s4, .c1, .init .i11, .init .i13, .init .i15, .init .i17, .init .i19] ∧
      Label.init .i19 ∈ [Label.a1, .b1, .wrs .s4, .init .i11, .init .i13, .init .i15, .init .i17, .init .i19] ∧
      Label.wb .w2 ∉ [.a1, .b1, .wrs .s4, .c1, .init .i11, .init .i13, .init .i15, .init .i17, .init .i19,
        .wb .w1, .wb .w3, .wb .w4, .wb .w5] := by decide

theorem witness_SenderOperandLowBitsAreIgnored :
    Label.init .i4 ∉ [.wb .w3, .wb .w4, .init .i3, .init .i5, .init .i7, .init .i9] ∧
      Label.init .i9 ∈ [Label.wb .w3, .wb .w4, .init .i3, .init .i5, .init .i7, .init .i9] ∧
      highNibble 0x3F = highNibble 0x30 ∧
      Label.pl .p6 ∉ [.sn .n1, .init .i4, .init .i6, .init .i8, .init .i10, .wb .w3, .wb .w4, .init .i3, .init .i5,
        .init .i7, .init .i9] := by decide

theorem witness_CommandLatchesAreHeldAndReadOnlyByTheirRows :
    Label.wrs .s1 ∉ [.a1, .b1, .c1, .v1] ∧ (0xFE : Byte).getLsbD 0 = (0x00 : Byte).getLsbD 0 := by decide

theorem witness_LcdIsReadAtP6Only : Label.pl .p5 ≠ .pl .p6 := by decide

/-- Both clauses: a flag already set, and the row that sets it. -/
theorem witness_FaultIsStickyAndSetOnlyAtPf3 :
    (∀ rest, (inPoll .pf3).host ≠ .reset :: rest) ∧ (inPoll .pf3).fault = false ∧
      (∃ t, step (inPoll .pf3) = .next t ∧ t.fault = true) ∧
      ∃ t, step { State.reset with fault := true } = .next t :=
  ⟨by simp [inPoll, at_, State.reset, State.afterReset], rfl, ⟨_, rfl, rfl⟩, _, rfl⟩

/-- An idle block to which nothing is offered stays as it is. -/
theorem run_idle (n : Nat) (s : State) (hp : s.pc = []) (hh : s.host = []) : run n s = .next s := by
  induction n with
  | zero => rfl
  | succ n ih =>
    have ht : s.tookInput = s := by
      cases s
      cases hh
      cases hp
      rfl
    have hs : step s = .next s := by
      rw [step_idle s (by simp only [State.resetAsserted, hh]) hp (by simp only [State.offered, hh]), ht]
    rw [run_succ n s s hs]
    exact ih

/-- An idle block with the list of one POLL on the port, and an LCD that is ready at once. -/
def pollOffered : State := { State.reset with host := [.keep (word 0x500)], lcd := [false] }

/-- The label on top of `pc` after `n` steps. -/
def topAfter (n : Nat) (s : State) : Option Label := (nextOf (run n s)).bind (fun t => t.pc.head?)

/-- The run of that POLL enters a poll once, after two steps, and is idle after seventeen. -/
theorem pollOffered_run :
    (∀ n < 17, topAfter n pollOffered = some (.pl .p1) → n = 2) ∧
      (nextOf (run 17 pollOffered)).map (fun t => (t.pc, t.host)) = some ([], []) := by decide

theorem pollOffered_eventuallyReady : EventuallyReady pollOffered := by
  intro n t rest hr hp
  by_cases hn : n < 17
  · obtain rfl : n = 2 := pollOffered_run.1 n hn (by simp [topAfter, nextOf, hr, hp])
    cases hr
    exact ⟨0, rfl, by intro L h; cases h⟩
  · obtain ⟨d, rfl⟩ := Nat.exists_eq_add_of_le (Nat.le_of_not_lt hn)
    cases hu : run 17 pollOffered with
    | fault r => exact nomatch r
    | refused r =>
      have hidle := pollOffered_run.2
      simp [hu, nextOf] at hidle
    | next u =>
      have hidle := pollOffered_run.2
      simp only [hu, nextOf, Option.map_some, Option.some.injEq, Prod.mk.injEq] at hidle
      rw [run_add 17 d _ u hu, run_idle d u hidle.1 hidle.2] at hr
      cases hr
      rw [hidle.1] at hp
      cases hp

theorem witness_CommandsHaveGoodRunsWhenEventuallyReady :
    pollOffered.pc = [] ∧ pollOffered.offered = some (word 0x500) ∧ NeverReset pollOffered ∧
      pollOffered.fault = false ∧ EventuallyReady pollOffered ∧
      ((word 0x500).word.opField = 3 → Terminated (word 0x500).str) ∧
      CmdWord.opField 0x300 = 3 ∧ Terminated ⟨[0x41, 0x42], .zeros⟩ :=
  ⟨rfl, rfl, by intro x hx; simp [pollOffered] at hx; simp [hx], rfl, pollOffered_eventuallyReady,
    fun _ => ⟨0, rfl⟩, rfl, ⟨2, rfl⟩⟩

theorem witness_CommandListsHaveGoodRunsWhenEventuallyReady :
    pollOffered.pc = [] ∧ pollOffered.host = [word 0x500].map .keep ∧ pollOffered.fault = false ∧
      EventuallyReady pollOffered ∧ ∀ o ∈ [word 0x500], o.word.opField = 3 → Terminated o.str :=
  ⟨rfl, rfl, rfl, pollOffered_eventuallyReady, by intro o ho _; simp at ho; subst ho; exact ⟨0, rfl⟩⟩

end Sys2Proof.Tests
end

section
/-! PROOFS. The direction lines RW and D7, the operands of WB and of SN: which rows write them and which read them.

Five rows look at the state before they act (P6, P13, W5, S2, C1). `branchFreeRow` writes those five with the branch
inside the fields it decides and leaves the other rows as they are, so that in that form each row's effect on a register
is plain from its label. -/

namespace Sys2Proof.Machine

open Sys2Proof.Safety

/-! ## The five branching rows, each as one update of the state -/

/-- How many of the LCD's answers a sample of D7 uses, by D7's direction (R114). -/
def answersUsed (d7oe : Level) : Nat :=
  match d7oe with
  | false => 1
  | true => 0

/-- Where row P13 goes on a verdict (R131). -/
def PollVerdict.target : PollVerdict → Label
  | .ready => .pl .p14
  | .giveUp => .pl .pf1
  | .again => .pl .p4

/-- What row W5 records (R160). -/
def byteRecord (sel : Level) (byt : Byte) : OpEvent :=
  match sel with
  | false => .instrWrite byt
  | true => .charWrite byt

/-- Row P6's read in either direction of D7: `bf`, the event, and the answers used (R114, R131). -/
theorem State.sampleBusy_eq (s : State) :
    s.sampleBusy =
      { afterDraws (answersUsed s.d7oe) s with bf := s.levelOnD7, bus := s.bus ++ [.sample s.levelOnD7] } := by
  cases h : s.d7oe with
  | false => simp [State.sampleBusy_input s h, State.tookDraw_eq, afterDraws, answersUsed, State.levelOnD7, h]
  | true => simp [State.sampleBusy, State.readLevelD7, afterDraws, answersUsed, State.emit, h]

/-- A row with its branch inside the fields that the branch decides. -/
def branchFreeRow : Label → State → State
  | .pl .p6, s =>
    State.goTo { afterDraws (answersUsed s.d7oe) s with bf := s.levelOnD7, bus := s.bus ++ [.sample s.levelOnD7] }
      (.pl .p7)
  | .pl .p13, s =>
    State.goTo { s with pollcnt := s.pollcnt + 1 } (pollVerdict s.pollLimit s.bf (s.pollcnt + 1)).target
  | .wb .w5, s => (s.emitOp (byteRecord s.sel s.byt)).ret
  | .wrs .s2, s => { s with pc := if s.ch = 0 then s.pc.tail else .wrs .s3 :: s.pc.tail }
  | .c1, s =>
    { s with
      sel := (rowByte s.arg).elim s.sel fun _ => false
      byt := (rowByte s.arg).getD s.byt
      pc := (rowByte s.arg).elim s.pc.tail fun _ => .wb .w1 :: s.pc.tail }
  | l, s => performRow l s

/-- Every row is its branch-free form. -/
theorem performRow_eq_branchFreeRow (l : Label) (s : State) : performRow l s = branchFreeRow l s := by
  cases l with
  | pl k =>
    cases k with
    | p6 => exact congrArg (State.goTo · (.pl .p7)) s.sampleBusy_eq
    | p13 =>
      show p13Row s = State.goTo _ (pollVerdict s.pollLimit s.bf (s.pollcnt + 1)).target
      unfold p13Row
      cases pollVerdict s.pollLimit s.bf (s.pollcnt + 1) <;> rfl
    | _ => rfl
  | wb k =>
    cases k with
    | w5 =>
      show wbRow .w5 s = (s.emitOp (byteRecord s.sel s.byt)).ret
      simp only [wbRow, byteRecord]
      cases s.sel <;> rfl
    | _ => rfl
  | wrs k =>
    cases k with
    | s2 =>
      show (if s.ch = 0 then s.ret else s.goTo (.wrs .s3)) = branchFreeRow (.wrs .s2) s
      simp only [branchFreeRow]
      split <;> rfl
    | _ => rfl
  | c1 =>
    show c1Row s = branchFreeRow .c1 s
    simp only [c1Row, branchFreeRow]
    cases rowByte s.arg <;> rfl
  | sn k | init k => cases k <;> rfl
  | a1 | b1 | q1 | v1 => rfl

/-! ## RW (R24) -/

/-- The rows that put RW in write direction. -/
def rwClearers : List Label := [.pl .p14, .pl .pf1, .wb .w2, .init .i1]

/-- RW after a row: read after P3, write after the clearing rows, else as it was. -/
theorem performRow_rw (l : Label) (s : State) :
    (performRow l s).rw = if l = .pl .p3 then true else if l ∈ rwClearers then false else s.rw := by
  rw [performRow_eq_branchFreeRow]
  cases l with
  | sn k | pl k | wb k | wrs k | init k => cases k <;> rfl
  | a1 | b1 | c1 | q1 | v1 => rfl

/-- RW is read only at labels of PL. -/
theorem exists_pl_of_rwAt {pc : List Label} (h : rwAt pc = true) :
    ∃ (l : PlLabel) (rest : List Label), pc = .pl l :: rest := by
  cases pc with
  | nil => simp [rwAt] at h
  | cons l rest =>
    cases l with
    | pl k => exact ⟨k, rest, rfl⟩
    | _ => simp [rwAt] at h

/-- Settles O44: the invariant's level of RW, and the level of RW after each row. -/
theorem directionIsReadOnlyInsideThePoll : Obligations.DirectionIsReadOnlyInsideThePoll := by
  unfold Obligations.DirectionIsReadOnlyInsideThePoll
  refine ⟨fun s hs hrw => exists_pl_of_rwAt (hs.rwLine ▸ hrw), fun l s hl => ?_, fun l s hl => ?_, fun s => ?_⟩
  · obtain ⟨hset, hclear⟩ : l ≠ .pl .p3 ∧ l ∉ rwClearers := not_or.mp (List.mem_cons.not.mp hl)
    rw [performRow_rw, if_neg hset, if_neg hclear]
  · have hset : l ≠ .pl .p3 := fun h => absurd (h ▸ hl) (by decide)
    rw [performRow_rw, if_neg hset]
    exact if_pos hl
  · rw [performRow_rw, if_pos rfl]

/-! ## The direction of D7 (R22) -/

/-- D7's direction after a row: an input after P1, an output after P15 and PF2, else as it was. -/
theorem performRow_d7oe (l : Label) (s : State) :
    (performRow l s).d7oe = if l = .pl .p1 then false else if l ∈ [.pl .p15, .pl .pf2] then true else s.d7oe := by
  rw [performRow_eq_branchFreeRow]
  cases l with
  | sn k | pl k | wb k | wrs k | init k => cases k <;> rfl
  | a1 | b1 | c1 | q1 | v1 => rfl

/-- D7 is an input only at labels of PL, and not at its first nor at the last of its fault exit. -/
theorem exists_pl_of_d7oeAt {pc : List Label} (h : d7oeAt pc = false) :
    ∃ (l : PlLabel) (rest : List Label), pc = .pl l :: rest ∧ l ≠ .p1 ∧ l ≠ .pf3 := by
  cases pc with
  | nil => simp [d7oeAt] at h
  | cons l rest =>
    cases l with
    | pl k =>
      refine ⟨k, rest, rfl, ?_, ?_⟩ <;> rintro rfl <;> simp [d7oeAt] at h
    | _ => simp [d7oeAt] at h

/-- Settles O45: the invariant's direction of D7, and the direction after each row. -/
theorem d7IsInputOnlyInsideThePoll : Obligations.D7IsInputOnlyInsideThePoll := by
  unfold Obligations.D7IsInputOnlyInsideThePoll
  refine ⟨fun s hs hd => exists_pl_of_d7oeAt (hs.d7Dir ▸ hd), fun s hs hpc => ?_, fun l s hl => ?_,
    fun s => ⟨rfl, rfl, rfl⟩⟩
  · rw [hs.d7Dir, hpc]; rfl
  · obtain ⟨hin, hout⟩ := not_or.mp (List.mem_cons.not.mp hl)
    rw [performRow_d7oe, if_neg hin, if_neg hout]

/-! ## The operands of WB (R31) -/

/-- The rows that call WB. -/
def wbCallers : List Label :=
  [.a1, .b1, .wrs .s4, .c1, .init .i11, .init .i13, .init .i15, .init .i17, .init .i19]

/-- The rows of WB that read its operands. -/
def wbReaders : List Label := [.wb .w1, .wb .w3, .wb .w4, .wb .w5]

/-- A row that does not call WB leaves WB's operands as they were. -/
theorem performRow_wbOperands (l : Label) (s : State) (hl : l ∉ wbCallers) :
    (performRow l s).sel = s.sel ∧ (performRow l s).byt = s.byt := by
  rw [performRow_eq_branchFreeRow]
  cases l with
  | sn k | pl k | wb k => cases k <;> exact ⟨rfl, rfl⟩
  | wrs k | init k => cases k <;> simp [wbCallers] at hl <;> exact ⟨rfl, rfl⟩
  | a1 | b1 | c1 => simp [wbCallers] at hl
  | q1 | v1 => exact ⟨rfl, rfl⟩

/-- Row C1 calls WB, or leaves WB's operands as they were (R164). -/
theorem c1Row_calls_or_keeps (s : State) :
    (c1Row s).pc = .wb .w1 :: s.pc.tail ∨ (c1Row s).sel = s.sel ∧ (c1Row s).byt = s.byt := by
  unfold c1Row
  cases rowByte s.arg with
  | some b => exact .inl rfl
  | none => exact .inr ⟨rfl, rfl⟩

/-- A row that neither calls WB nor reads its operands acts the same whatever they are. -/
theorem performRow_other_wbOperands (l : Label) (s : State) (v : Level) (b : Byte) (hl : l ∉ wbCallers ++ wbReaders) :
    performRow l { s with sel := v, byt := b } = { performRow l s with sel := v, byt := b } := by
  simp only [performRow_eq_branchFreeRow]
  cases l with
  | sn k | pl k => cases k <;> rfl
  | wb k | wrs k | init k => cases k <;> simp [wbCallers, wbReaders] at hl <;> rfl
  | a1 | b1 | c1 => simp [wbCallers] at hl
  | q1 | v1 => rfl

/-- Settles O47: what each row writes and reads of WB's operands. -/
theorem writerOperandsAreWrittenByCallersOnly : Obligations.WriterOperandsAreWrittenByCallersOnly := by
  unfold Obligations.WriterOperandsAreWrittenByCallersOnly
  refine ⟨performRow_wbOperands, fun l s hl => ?_, c1Row_calls_or_keeps, performRow_other_wbOperands⟩
  fin_cases hl <;> exact ⟨_, rfl⟩

/-! ## The operand of SN (R32) -/

/-- The rows that call SN. -/
def snCallers : List Label := [.wb .w3, .wb .w4, .init .i3, .init .i5, .init .i7, .init .i9]

/-- The rows that read `nib[7:4]`: N1, and the rows of INIT that record the nibble sent (R130, R190). -/
def nibReaders : List Label := [.sn .n1, .init .i4, .init .i6, .init .i8, .init .i10]

/-- A row that does not call SN leaves SN's operand as it was. -/
theorem performRow_nib (l : Label) (s : State) (hl : l ∉ snCallers) : (performRow l s).nib = s.nib := by
  rw [performRow_eq_branchFreeRow]
  cases l with
  | sn k | pl k | wrs k => cases k <;> rfl
  | wb k | init k => cases k <;> simp [snCallers] at hl <;> rfl
  | a1 | b1 | c1 | q1 | v1 => rfl

/-- A row that neither reads `nib[7:4]` nor calls SN acts the same whatever `nib` is. -/
theorem performRow_other_nib (l : Label) (s : State) (v : Byte) (hl : l ∉ nibReaders ++ snCallers) :
    performRow l { s with nib := v } = { performRow l s with nib := v } := by
  simp only [performRow_eq_branchFreeRow]
  cases l with
  | pl k | wrs k => cases k <;> rfl
  | sn k | wb k | init k => cases k <;> simp [nibReaders, snCallers] at hl <;> rfl
  | a1 | b1 | c1 | q1 | v1 => rfl

/-- A row that reads `nib[7:4]` does not look at `nib[3:0]`. -/
theorem performRow_other_lowNibble (l : Label) (s : State) (v : Byte) (hl : l ∈ nibReaders)
    (hv : highNibble v = highNibble s.nib) :
    performRow l { s with nib := v } = { performRow l s with nib := v } := by
  fin_cases hl <;> simp only [performRow, snRow, initRow, initSent, hv] <;> rfl

/-- Settles O48: what each row writes and reads of SN's operand. -/
theorem senderOperandLowBitsAreIgnored : Obligations.SenderOperandLowBitsAreIgnored := by
  unfold Obligations.SenderOperandLowBitsAreIgnored
  refine ⟨performRow_nib, fun l s hl => ?_, fun l s v hl hv => ?_, performRow_other_nib⟩
  · fin_cases hl <;> exact ⟨_, rfl⟩
  · by_cases hr : l ∈ nibReaders
    · exact performRow_other_lowNibble l s v hr hv
    · exact performRow_other_nib l s v (List.not_mem_append hr hl)

end Sys2Proof.Machine
end

section
/-! PROOFS. The nibbles of a byte as numbers, and the two operands that the byte writer gives SN (R85). -/

namespace Sys2Proof.Machine

/-! ## Nibbles as numbers -/

/-- The value of the high nibble. -/
theorem highNibble_toNat (b : Byte) : (highNibble b).toNat = b.toNat / 16 := by
  have hb : b.toNat < 256 := b.isLt
  simp only [highNibble, BitVec.extractLsb'_toNat, Nat.shiftRight_eq_div_pow]
  omega

/-- The value of the low nibble. -/
theorem lowNibble_toNat (b : Byte) : (lowNibble b).toNat = b.toNat % 16 := by
  simp only [lowNibble, BitVec.extractLsb'_toNat, Nat.shiftRight_zero]

/-- The value of a byte shifted left by 4 on 8 bits: the four bits shifted out are lost. -/
theorem shiftedForLow_toNat (b : Byte) : (shiftedForLow b).toNat = b.toNat * 16 % 256 := by
  simp only [shiftedForLow, BitVec.toNat_shiftLeft, Nat.shiftLeft_eq]

/-! ## The rows that set and use SN's operand -/

/-- Row W3 calls SN on the byte itself. -/
theorem performRow_w3_nib (s : State) : (performRow (.wb .w3) s).nib = s.byt := rfl

/-- Row W4 calls SN on the byte shifted for its low nibble. -/
theorem performRow_w4_nib (s : State) : (performRow (.wb .w4) s).nib = shiftedForLow s.byt := rfl

/-- Row N1 puts the high nibble of SN's operand on the data latch. -/
theorem performRow_n1_dOut (s : State) : (performRow (.sn .n1) s).dOut = highNibble s.nib := rfl

/-- Settles O17: the operands that W3 and W4 give SN, and the nibbles that N1 puts on the lines for them. -/
theorem nibbleOperandsSplitTheByte : Obligations.NibbleOperandsSplitTheByte := by
  unfold Obligations.NibbleOperandsSplitTheByte
  refine ⟨fun s => ⟨performRow_w3_nib s, ?_⟩, fun s => ?_, fun b => ⟨highNibble_toNat b, ?_⟩⟩
  · rw [performRow_w4_nib, shiftedForLow_toNat]
  · rw [performRow_n1_dOut, highNibble_toNat]
  · rw [highNibble_shiftedForLow, lowNibble_toNat]

end Sys2Proof.Machine
end

section
/-! PROOFS. The nibble engine: SN's strobe as five rows (R130), and the lines at the two ends of a poll (R137). -/

namespace Sys2Proof.Machine

open Sys2Proof.Safety

/-! ## SN, the write strobe (R130, R133) -/

/-- The block is busy at each of SN's five rows. -/
theorem busyFor_sendNibble {s : State} {rest : List Label} (hpc : s.pc = .sn .n1 :: rest) : busyFor 5 s :=
  ⟨_, _, hpc, _, _, rfl, _, _, rfl, _, _, rfl, _, _, rfl, trivial⟩

/-- The five rows of SN as one update of the state. -/
theorem rows_sendNibble {s : State} {rest : List Label} (hpc : s.pc = .sn .n1 :: rest) :
    rows 5 s = { s with
      dOut := highNibble s.nib, e := false, pc := rest, bus := s.bus ++ writeStrobe (highNibble s.nib) } := by
  calc rows 5 s
      = rows 4 (performRow (.sn .n1) s) := rows_succ 4 s _ rest hpc
    _ = { s with
          dOut := highNibble s.nib, e := false, pc := s.pc.tail
          bus := s.bus ++ [.data (highNibble s.nib)] ++ [.lvl .e true] ++ [.wait Config.tEH] ++ [.lvl .e false] ++
            [.wait Config.tEL] } := rfl
    _ = _ := by simp [hpc, writeStrobe]

/-- Settles O16: the run of SN is its five rows, beside the host's inputs used up. -/
theorem sendNibbleMakesOneWriteStrobe : Obligations.SendNibbleMakesOneWriteStrobe := by
  unfold Obligations.SendNibbleMakesOneWriteStrobe
  intro s rest hpc hn
  rw [run_busy 5 s (busyFor_sendNibble hpc) hn, rows_sendNibble hpc]
  rfl

/-! ## The ends of PL (R137) -/

/-- The data latch after a row: the high nibble of SN's operand after N1, else as it was (R21). -/
theorem performRow_dOut (l : Label) (s : State) :
    (performRow l s).dOut = if l = .sn .n1 then highNibble s.nib else s.dOut := by
  rw [performRow_eq_branchFreeRow]
  cases l with
  | sn k | pl k | wb k | wrs k | init k => cases k <;> rfl
  | a1 | b1 | c1 | q1 | v1 => rfl

/-- The levels before the last row of a poll, at either of its ends. -/
theorem lines_at_pollExit {s : State} {l : PlLabel} {rest : List Label} (hs : Inv s) (hl : l = .p15 ∨ l = .pf3)
    (hpc : s.pc = .pl l :: rest) : s.rw = false ∧ s.e = false ∧ s.rs = false := by
  rw [hs.rwLine, hs.eLine, hpc]
  obtain rfl | rfl := hl <;> exact ⟨rfl, rfl, hs.pollIr (by rw [hpc]; rfl)⟩

/-- The last row of a poll leaves the bus restored: P15 gives D7 back to the block; PF3 drives no line, and PF2 has given
D7 back before it (R131, R221). -/
theorem performRow_pollExit_lines {s : State} {l : PlLabel} {rest : List Label} (hs : Inv s)
    (hl : l = .p15 ∨ l = .pf3) (hpc : s.pc = .pl l :: rest) :
    (performRow (.pl l) s).rw = false ∧ (performRow (.pl l) s).d7oe = true ∧ (performRow (.pl l) s).e = false ∧
      (performRow (.pl l) s).rs = false := by
  obtain ⟨hrw, he, hrs⟩ := lines_at_pollExit hs hl hpc
  obtain rfl | rfl := hl
  · exact ⟨hrw, rfl, he, hrs⟩
  · have hd : s.d7oe = true := by rw [hs.d7Dir, hpc]; rfl
    exact ⟨hrw, hd, he, hrs⟩

/-- A step of a busy block at which reset is not asserted answers the row of the top label (R117). -/
theorem eq_performRow_of_step {s t : State} {l : Label} {rest : List Label} (hpc : s.pc = l :: rest)
    (hn : noReset 1 s.host = true) (ht : step s = .next t) :
    t = (performRow l s).withHost (hostAfterBusy s.host) := by
  have hr : s.resetAsserted = false := resetAsserted_eq_false s (noReset_succ 0 s.host hn).1
  rw [step_busy s l rest hr hpc] at ht
  exact (Host.Outcome.next.inj ht).symm

/-- The step that performs the last row of a poll leaves the bus restored. -/
theorem step_pollExit_lines {s t : State} {l : PlLabel} {rest : List Label} (hs : Inv s) (hl : l = .p15 ∨ l = .pf3)
    (hn : noReset 1 s.host = true) (ht : step s = .next t) (hpc : s.pc = .pl l :: rest) :
    t.rw = false ∧ t.d7oe = true ∧ t.e = false ∧ t.rs = false := by
  have hlines := performRow_pollExit_lines hs hl hpc
  rw [eq_performRow_of_step hpc hn ht]
  exact hlines

/-- Settles O25: the lines after the last row of either end of a poll, and the data latch over all of PL's rows. -/
theorem pollRestoresTheBus : Obligations.PollRestoresTheBus := by
  unfold Obligations.PollRestoresTheBus
  refine ⟨fun s t rest hs hpc hn ht => ?_, fun l s => ?_⟩
  · obtain hpc | hpc := hpc
    · exact step_pollExit_lines hs (.inl rfl) hn ht hpc
    · exact step_pollExit_lines hs (.inr rfl) hn ht hpc
  · rw [performRow_dOut, if_neg (by simp)]

end Sys2Proof.Machine
end

section
/-! PROOFS. The byte writer WB: its fifteen rows put together from the two calls of SN and the record (R160), and the
two write strobes of a byte write frame (R74, R82). -/

namespace Sys2Proof.Machine

open Sys2Proof.Safety

/-! ## Rows of a busy block, as one relation -/

/-- `n` rows of a block busy at each of them lead from `s` to `t`. -/
def RowsTo (n : Nat) (s t : State) : Prop := busyFor n s ∧ rows n s = t

/-- The row of the top label. -/
theorem RowsTo.single {s : State} {l : Label} {rest : List Label} (hpc : s.pc = l :: rest) :
    RowsTo 1 s (performRow l s) :=
  ⟨⟨l, rest, hpc, trivial⟩, rows_succ 0 s l rest hpc⟩

/-- Rows of two parts. -/
theorem RowsTo.trans {n m : Nat} {s t u : State} (h : RowsTo n s t) (h' : RowsTo m t u) : RowsTo (n + m) s u := by
  obtain ⟨hb, rfl⟩ := h
  obtain ⟨hb', rfl⟩ := h'
  exact ⟨busyFor_add n m s hb hb', rows_add n m s⟩

/-- As a run without reset: the same rows, beside the host's inputs used up. -/
theorem RowsTo.run_eq {n : Nat} {s t : State} (h : RowsTo n s t) (hn : noReset n s.host = true) :
    run n s = .next (t.withHost (hostAfter n s.host)) := by
  obtain ⟨hb, rfl⟩ := h
  exact run_busy n s hb hn

/-- SN (R130). -/
theorem rowsTo_sendNibble {s : State} {rest : List Label} (hpc : s.pc = .sn .n1 :: rest) :
    RowsTo 5 s { s with
      dOut := highNibble s.nib, e := false, pc := rest, bus := s.bus ++ writeStrobe (highNibble s.nib) } :=
  ⟨busyFor_sendNibble hpc, rows_sendNibble hpc⟩

/-! ## WB (R160) -/

/-- W1 to W3 put RS at `sel` and RW at write, and call SN on the byte. -/
theorem rowsTo_byteWriter_levels {s : State} {rest : List Label} (hpc : s.pc = .wb .w1 :: rest) :
    RowsTo 3 s { s with
      rw := false, rs := s.sel, nib := s.byt, pc := .sn .n1 :: .wb .w4 :: rest
      bus := s.bus ++ [.lvl .rs s.sel, .lvl .rw false] } := by
  refine ⟨⟨_, _, hpc, _, _, rfl, _, _, rfl, trivial⟩, ?_⟩
  calc rows 3 s
      = rows 2 (performRow (.wb .w1) s) := rows_succ 2 s _ rest hpc
    _ = { s with
          rw := false, rs := s.sel, nib := s.byt, pc := .sn .n1 :: .wb .w4 :: s.pc.tail
          bus := s.bus ++ [.lvl .rs s.sel] ++ [.lvl .rw false] } := rfl
    _ = _ := by simp [hpc]

/-- W4 and the SN it calls: the strobe of the low nibble. -/
theorem rowsTo_byteWriter_low {s : State} {rest : List Label} (hpc : s.pc = .wb .w4 :: rest) :
    RowsTo 6 s { s with
      dOut := lowNibble s.byt, e := false, nib := shiftedForLow s.byt, pc := .wb .w5 :: rest
      bus := s.bus ++ writeStrobe (lowNibble s.byt) } := by
  have hcall : (performRow (.wb .w4) s).pc = .sn .n1 :: .wb .w5 :: rest := by
    simp [performRow, wbRow, State.callThen, hpc]
  rw [← highNibble_shiftedForLow]
  exact (RowsTo.single hpc).trans (rowsTo_sendNibble hcall)

/-- What W5 records is the operation event of a completed byte write. -/
theorem byteRecord_eq (sel : Level) (b : Byte) : byteRecord sel b = byteOpEvent sel b := by
  cases sel <;> rfl

/-- W5 records the write and returns. -/
theorem rowsTo_byteWriter_record {s : State} {rest : List Label} (hpc : s.pc = .wb .w5 :: rest) :
    RowsTo 1 s { s with pc := rest, ops := s.ops ++ [byteOpEvent s.sel s.byt] } := by
  have hrow : performRow (.wb .w5) s = (s.emitOp (byteRecord s.sel s.byt)).ret := performRow_eq_branchFreeRow _ s
  have hto := RowsTo.single hpc
  rw [hrow, byteRecord_eq, State.emitOp, State.ret, hpc] at hto
  exact hto

/-- The fifteen rows of WB as one update of the state. -/
theorem rowsTo_byteWriter {s : State} {rest : List Label} (hpc : s.pc = .wb .w1 :: rest) :
    RowsTo 15 s { s with
      dOut := lowNibble s.byt, e := false, rw := false, rs := s.sel, nib := shiftedForLow s.byt, pc := rest
      bus := s.bus ++ byteFrame s.sel s.byt, ops := s.ops ++ [byteOpEvent s.sel s.byt] } := by
  have hhigh := (rowsTo_byteWriter_levels hpc).trans (rowsTo_sendNibble rfl)
  have hlow := hhigh.trans (rowsTo_byteWriter_low rfl)
  have hall := hlow.trans (rowsTo_byteWriter_record rfl)
  simpa only [byteFrame, List.append_assoc] using hall

/-! ## The strobes of a byte write frame (R74) -/

/-- What a write strobe leaves of the view of the lines. -/
theorem foldl_after_writeStrobe (v : LineView) (n : Nibble) :
    (writeStrobe n).foldl LineView.after v = { v with dOut := n, e := false, last := none } := rfl

/-- With RW at write, a write strobe is one strobe, of its nibble at the level of RS. -/
theorem strobesFrom_writeStrobe {v : LineView} (hrw : v.rw = false) (n : Nibble) :
    strobesFrom v (writeStrobe n) = [.wr v.rs n] := by
  simp [strobesFrom, writeStrobe, LineView.strobeAt, LineView.after, hrw]

/-- A byte write frame is two write strobes, high nibble first, whatever the lines were before it. -/
theorem strobesFrom_byteFrame (v : LineView) (sel : Level) (b : Byte) :
    strobesFrom v (byteFrame sel b) = [.wr sel (highNibble b), .wr sel (lowNibble b)] := by
  have hlevels : strobesFrom v [.lvl .rs sel, .lvl .rw false] = [] := rfl
  have hview : [.lvl .rs sel, .lvl .rw false].foldl LineView.after v = { v with rs := sel, rw := false } := rfl
  rw [byteFrame, List.append_assoc, strobesFrom_append, strobesFrom_append, hlevels, hview, foldl_after_writeStrobe,
    strobesFrom_writeStrobe rfl, strobesFrom_writeStrobe rfl]
  rfl

/-- Settles O19: the run of WB is its fifteen rows, beside the host's inputs used up, and its frame is two write
strobes. -/
theorem byteWriterSendsHighThenLowNibble : Obligations.ByteWriterSendsHighThenLowNibble := by
  unfold Obligations.ByteWriterSendsHighThenLowNibble
  intro s rest hpc hn
  exact ⟨(rowsTo_byteWriter hpc).run_eq hn, strobesFrom_byteFrame s.lineView s.sel s.byt⟩

end Sys2Proof.Machine
end

section
/-! PROOFS. The two opcode maps as encoder and decoder (R80, R81, R88), and what a word of the opcode table runs as. -/

namespace Sys2Proof

/-! ## Command words -/

/-- The instruction of a command code, any code past 6 being NOP's (R90). -/
def commandOf : Nat → Byte → StringArg → Instr
  | 0, a, _ => .init a
  | 1, a, _ => .wri a
  | 2, a, _ => .wrc a
  | 3, a, str => .wrs a str
  | 4, a, _ => .setcur a
  | 5, a, _ => .poll a
  | 6, a, _ => .pwr a
  | _, a, _ => .nop a

/-- The eight command codes (R90). -/
theorem opCode_cases (op : OpCode) :
    op = 0 ∨ op = 1 ∨ op = 2 ∨ op = 3 ∨ op = 4 ∨ op = 5 ∨ op = 6 ∨ op = 7 := by
  revert op; decide

/-- A word made of a code and an operand decodes by its code. -/
theorem decodeCommand_make (op : OpCode) (arg : Byte) (str : StringArg) :
    decodeCommand (CmdWord.make op arg) str = commandOf op.toNat arg str := by
  simp only [decodeCommand, CmdWord.make_opField, CmdWord.make_argField]
  obtain rfl | rfl | rfl | rfl | rfl | rfl | rfl | rfl := opCode_cases op <;> rfl

/-- A code with its operand encodes to the word made of them; WRS keeps its string. -/
theorem encode_commandOf (op : OpCode) (arg : Byte) (str : StringArg) :
    ∃ str', encode (commandOf op.toNat arg str) = .cmd (CmdWord.make op arg) str' ∧ (op = 3 → str' = str) := by
  obtain rfl | rfl | rfl | rfl | rfl | rfl | rfl | rfl := opCode_cases op
  case inr.inr.inr.inl => exact ⟨str, rfl, fun _ => rfl⟩
  all_goals exact ⟨StringArg.empty, rfl, fun h => absurd h (by decide)⟩

/-- Settles O2: a word is made of its two fields, and encoding puts the same two together again. -/
theorem encodeDecodeGivesCommandWordBack : Obligations.EncodeDecodeGivesCommandWordBack := by
  unfold Obligations.EncodeDecodeGivesCommandWordBack
  intro w str
  have h := encode_commandOf w.opField w.argField str
  rwa [← decodeCommand_make, CmdWord.make_fields] at h

/-! ## LCD instruction bytes -/

/-- What a lookup finds stands in the table. -/
theorem mem_of_lookupByte {b : Byte} {i : Instr} {table : List (Byte × Instr)} (h : lookupByte b table = some i) :
    (b, i) ∈ table := by
  induction table with
  | nil => exact nomatch h
  | cons row rest ih =>
    unfold lookupByte at h
    split at h
    · next hb => cases h; exact hb ▸ List.mem_cons_self
    · exact List.mem_cons_of_mem _ (ih h)

/-- A lookup finds nothing exactly for the bytes that are not listed. -/
theorem lookupByte_eq_none_iff {b : Byte} {table : List (Byte × Instr)} :
    lookupByte b table = none ↔ b ∉ table.map Prod.fst := by
  induction table with
  | nil => simp [lookupByte]
  | cons row rest ih =>
    unfold lookupByte
    split <;> simp_all

/-- Each row of the table holds the byte that its instruction encodes to. -/
theorem encode_of_mem_lcdByteTable {b : Byte} {i : Instr} (h : (b, i) ∈ lcdByteTable) : encode i = .lcd b := by
  have hall : ∀ row ∈ lcdByteTable, encode row.2 = .lcd row.1 := by decide
  exact hall _ h

/-- A byte that is decoded stands in the table with its instruction. -/
theorem decodeLcdByte_ok {b : Byte} {i : Instr} (h : decodeLcdByte b = .ok i) : (b, i) ∈ lcdByteTable := by
  unfold decodeLcdByte at h
  split at h
  · next heq => cases h; exact mem_of_lookupByte heq
  · exact nomatch h

/-- Settles O3: the decoder looks the byte up in the table, whose rows hold the bytes of their instructions. -/
theorem lcdByteDecodesOnlyToItsOwnRow : Obligations.LcdByteDecodesOnlyToItsOwnRow := by
  unfold Obligations.LcdByteDecodesOnlyToItsOwnRow
  refine ⟨fun b i h => encode_of_mem_lcdByteTable (decodeLcdByte_ok h), fun b hb => ?_, fun b hb => ?_⟩
  · cases hl : lookupByte b lcdByteTable with
    | some i => exact ⟨i, by simp only [decode, decodeLcdByte, hl]⟩
    | none => exact absurd hb (lookupByte_eq_none_iff.mp hl)
  · have hl : lookupByte b lcdByteTable = none := lookupByte_eq_none_iff.mpr hb
    simp only [decode, decodeLcdByte, hl]

/-! ## Decode of encode -/

/-- Settles O1: a command word decodes by the fields it was made of, an LCD byte by its row of the table. -/
theorem decodeEncodeIsIdentity : Obligations.DecodeEncodeIsIdentity := by
  unfold Obligations.DecodeEncodeIsIdentity
  intro i _
  cases i with
  | init | wri | wrc | wrs | setcur | poll | pwr | nop => exact congrArg Except.ok (decodeCommand_make _ _ _)
  | _ => rfl

/-- Settles O4: the decoder on the words and bytes of the spec's vectors. -/
theorem specWordsDecodeAsTheSpecSays : Obligations.SpecWordsDecodeAsTheSpecSays := by
  unfold Obligations.SpecWordsDecodeAsTheSpecSays
  exact ⟨by decide, by decide⟩

/-! ## Words of the opcode table -/

/-- A wide table word decodes as the command word of its 11 bits, its string empty (log entry 13). -/
theorem decodeTableWord_command {w : Nat} {i : Instr} (h : decodeTableWord 16 w = some i) :
    decodeCommand (BitVec.ofNat 11 w) StringArg.empty = i := by
  by_cases hw : w < 2048
  · simpa [decodeTableWord, encodedOfTableWord, hw, decode] using h
  · simp [decodeTableWord, encodedOfTableWord, hw] at h

/-- A narrow table word decodes as an LCD instruction byte. -/
theorem decodeTableWord_lcdByte {w : Nat} {i : Instr} (h : decodeTableWord 8 w = some i) :
    decodeLcdByte (BitVec.ofNat 8 w) = .ok i := by
  by_cases hw : w < 256
  · cases hd : decodeLcdByte (BitVec.ofNat 8 w) <;> simp_all [decodeTableWord, encodedOfTableWord, decode]
  · simp [decodeTableWord, encodedOfTableWord, hw] at h

end Sys2Proof

namespace Sys2Proof.Machine

/-- An LCD instruction byte is accepted as the WRI of it (log entry 8). -/
theorem exec_lcdByte {i : Instr} {b : Byte} (h : encode i = .lcd b) (s : State) : exec i s = exec (.wri b) s := by
  cases i with
  | init | wri | wrc | wrs | setcur | poll | pwr | nop => exact nomatch h
  | _ => cases h; rfl

/-- A block made idle with a command on its port accepts it at the next step. -/
theorem step_withOffer (s : State) (o : Offer) : step (s.withOffer o) = exec (fetchOffered o) { s with pc := [] } :=
  step_accepts (s.withOffer o) o rfl rfl rfl

/-- Settles O6: the word placed on the port is the one that the decoder read, or the WRI of the LCD byte it read. -/
theorem tableWordsRunAsDecoded : Obligations.TableWordsRunAsDecoded := by
  unfold Obligations.TableWordsRunAsDecoded
  refine ⟨fun s w i h => ?_, fun s w i h => ?_⟩
  · rw [State.withFetchWord, step_withOffer, ← decodeTableWord_command h]
    rfl
  · have hbyte : encode i = .lcd (BitVec.ofNat 8 w) :=
      encode_of_mem_lcdByteTable (decodeLcdByte_ok (decodeTableWord_lcdByte h))
    have hfetch : fetchOffered (offerOfTableWord 8 w) = .wri (BitVec.ofNat 8 w) := decodeCommand_make _ _ _
    rw [State.withFetchWord, step_withOffer, hfetch, exec_lcdByte hbyte]

end Sys2Proof.Machine
end

section
/-! PROOFS. Acceptance of a command (R118), the next state of every step (R117), and reset (R250). -/

namespace Sys2Proof.Machine

/-! ## Acceptance by an idle block -/

/-- An idle block takes the command. -/
theorem State.accept_idle {s : State} (hp : s.pc = []) (op : OpCode) (arg : Byte) (entry : List Label) :
    s.accept op arg entry = .next { s with op := op, arg := arg, pc := entry } := by
  rw [State.accept_eq, if_pos hp]

/-- An idle block takes WRS with its string. -/
theorem exec_wrs_idle {s : State} (hp : s.pc = []) (a : Byte) (str : StringArg) :
    exec (.wrs a str) s = .next { s with op := 3, arg := a, sidx := 0, str := Str.ofArg str, pc := [.wrs .s1] } := by
  show s.acceptString 3 a str [.wrs .s1] = _
  rw [State.acceptString_eq, if_pos hp]

/-- Settles O13: each command is an acceptance with its code, operand and entry label. -/
theorem acceptanceLatchesCommandAndEntersItsTable : Obligations.AcceptanceLatchesCommandAndEntersItsTable := by
  unfold Obligations.AcceptanceLatchesCommandAndEntersItsTable
  intro s hp
  have htake := State.accept_idle hp
  exact ⟨fun a => htake 0 a _, fun b => htake 1 b _, fun b => htake 2 b _, exec_wrs_idle hp, fun n => htake 4 n _,
    fun a => htake 5 a _, fun a => htake 6 a _, fun a => htake 7 a _⟩

/-- Settles O34: the acceptance of NOP leaves `pc` empty as it was. -/
theorem nopOnlyLatches : Obligations.NopOnlyLatches := by
  unfold Obligations.NopOnlyLatches
  intro s a hp
  calc exec (.nop a) s
      = .next { s with op := 7, arg := a, pc := [] } := State.accept_idle hp 7 a []
    _ = .next { s with op := 7, arg := a } := by rw [← hp]

/-- Settles O14: the string space is that of the argument given, which reads as its bytes and then its tail. -/
theorem boundStringReadsAsGiven : Obligations.BoundStringReadsAsGiven := by
  unfold Obligations.BoundStringReadsAsGiven
  intro s t a str hp h
  obtain rfl := Host.Outcome.next.inj ((exec_wrs_idle hp a str).symm.trans h)
  refine ⟨Str.ofArg_wf str, fun i hi => ?_, fun i hi ht => ?_, fun i b hi ht => ?_, fun i k hi ht => ?_⟩
  · have hread := Str.read_ofArg str i
    rwa [if_pos hi, List.getD_eq_getElem _ _ hi] at hread
  all_goals
    have hread := Str.read_ofArg str i
    rwa [if_neg (Nat.not_lt.mpr hi), ht] at hread

/-! ## Acceptance by any block -/

/-- The stacks that acceptance of a command other than WRS sets (R90, R118). -/
def entryStacks : List (List Label) := [[.init .i0], [.a1], [.b1], [.c1], [.q1], [.v1], []]

/-- Acceptance latches a command and enters its table, or, on a busy block, does nothing. -/
theorem State.accept_cases {s t : State} {op : OpCode} {arg : Byte} {entry : List Label}
    (h : s.accept op arg entry = .next t) : t = s ∨ t = { s with op := op, arg := arg, pc := entry } := by
  rw [State.accept_eq] at h
  obtain rfl := Host.Outcome.next.inj h
  split
  · exact .inr rfl
  · exact .inl rfl

/-- All that acceptance of an instruction can do: nothing, on a busy block; latch a command and enter its table; for WRS
bind the string as well. -/
theorem exec_cases {i : Instr} {s t : State} (h : exec i s = .next t) :
    t = s ∨ (∃ op arg, ∃ entry ∈ entryStacks, t = { s with op := op, arg := arg, pc := entry }) ∨
      ∃ a str, i = .wrs a str ∧
        t = { s with op := 3, arg := a, sidx := 0, str := Str.ofArg str, pc := [.wrs .s1] } := by
  cases i with
  | wrs a str =>
    rw [show exec (.wrs a str) s = s.acceptString 3 a str [.wrs .s1] from rfl, State.acceptString_eq] at h
    obtain rfl := Host.Outcome.next.inj h
    split
    · exact .inr (.inr ⟨a, str, rfl, rfl⟩)
    · exact .inl rfl
  | _ => exact (State.accept_cases h).imp id fun ht => .inl ⟨_, _, _, by decide, ht⟩

/-- Settles O15: whatever acceptance does is an update of `op`, `arg`, `pc` and, for WRS, `sidx` and the string. -/
theorem acceptanceFrame : Obligations.AcceptanceFrame := by
  unfold Obligations.AcceptanceFrame
  intro i s t h
  obtain rfl | ⟨op, arg, entry, _, rfl⟩ | ⟨a, str, rfl, rfl⟩ := exec_cases h
  · simp
  · simp
  · simp

/-! ## The next state of a step -/

/-- Settles O7: reset, acceptance, an idle step and a row each answer a next state. -/
theorem everyStateHasNextState : Obligations.EveryStateHasNextState := by
  unfold Obligations.EveryStateHasNextState
  intro s
  cases hr : s.resetAsserted with
  | true => exact ⟨_, step_reset s hr⟩
  | false =>
    cases hp : s.pc with
    | cons l rest => exact ⟨_, step_busy s l rest hr hp⟩
    | nil =>
      cases ho : s.offered with
      | none => exact ⟨_, step_idle s hr hp ho⟩
      | some o =>
        rw [step_accepts s o hr hp ho]
        exact exec_answers _ _

/-- The input that an idle block uses up is the first. -/
theorem tookInput_idle {s : State} (hp : s.pc = []) : s.tookInput = s.withHost (hostAfterIdle s.host) := by
  simp only [State.tookInput, hp]

/-- A reset that is asserted is used up. -/
theorem tookInput_reset {s : State} {rest : List HostInput} (hh : s.host = .reset :: rest) :
    s.tookInput = s.withHost rest := by
  cases hp : s.pc <;> simp only [State.tookInput, hp, hh, hostAfterIdle, hostAfterBusy]

/-- Any step uses up at most the host's input. -/
theorem exists_withHost_tookInput (s : State) : ∃ h, s.tookInput = s.withHost h := by
  cases hp : s.pc with
  | nil => exact ⟨_, tookInput_idle hp⟩
  | cons l rest => exact ⟨hostAfterBusy s.host, by simp only [State.tookInput, hp]⟩

/-- All that a step can do: reset; on an idle block nothing, or the acceptance of a command; on a busy one the row of
the top label; each beside the host's input used up (R117). -/
theorem step_cases {s t : State} (h : step s = .next t) :
    (∃ rest, s.host = .reset :: rest ∧ t = (s.withHost rest).resetStep) ∨
      (∃ h', s.pc = [] ∧ (t = s.withHost h' ∨ ∃ i, exec i (s.withHost h') = .next t)) ∨
      ∃ l rest h', s.pc = l :: rest ∧ t = (performRow l s).withHost h' := by
  cases hr : s.resetAsserted with
  | true =>
    obtain ⟨rest, hh⟩ : ∃ rest, s.host = .reset :: rest := by
      by_contra hno
      exact absurd hr (by simp [resetAsserted_eq_false s fun rest hh => hno ⟨rest, hh⟩])
    rw [step_reset s hr, tookInput_reset hh] at h
    exact .inl ⟨rest, hh, (Host.Outcome.next.inj h).symm⟩
  | false =>
    cases hp : s.pc with
    | cons l rest =>
      rw [step_busy s l rest hr hp] at h
      exact .inr (.inr ⟨l, rest, _, rfl, (Host.Outcome.next.inj h).symm⟩)
    | nil =>
      obtain ⟨h', hin⟩ := exists_withHost_tookInput s
      refine .inr (.inl ⟨h', rfl, ?_⟩)
      cases ho : s.offered with
      | none =>
        rw [step_idle s hr hp ho, hin] at h
        exact .inl (Host.Outcome.next.inj h).symm
      | some o =>
        rw [step_accepts s o hr hp ho, hin] at h
        exact .inr ⟨_, h⟩

/-- Settles O5: the step of an idle block with a command on its port is the command's acceptance. -/
theorem stepRunsOfferedCommand : Obligations.StepRunsOfferedCommand := by
  unfold Obligations.StepRunsOfferedCommand
  intro s o i rest hp hh hd
  obtain rfl : decodeCommand o.word o.str = i := Except.ok.inj hd
  obtain hh | hh := hh
  all_goals
    have hoffer : s.resetAsserted = false ∧ s.offered = some o := by simp [State.resetAsserted, State.offered, hh]
    rw [step_accepts s o hoffer.1 hp hoffer.2, tookInput_idle hp, hh]
    rfl

/-- Settles O8: with nothing offered the step of an idle block uses up an input at most. -/
theorem idleWithoutOfferChangesNothing : Obligations.IdleWithoutOfferChangesNothing := by
  unfold Obligations.IdleWithoutOfferChangesNothing
  intro s rest hp
  have hidle : s.resetAsserted = false → s.offered = none → step s = .next (s.withHost (hostAfterIdle s.host)) := by
    intro hr ho
    rw [step_idle s hr hp ho, tookInput_idle hp]
  refine ⟨fun hh => ?_, fun hh => ?_⟩
  · rw [hidle (by simp only [State.resetAsserted, hh]) (by simp only [State.offered, hh]), hh]
    rfl
  · rw [hidle (by simp only [State.resetAsserted, hh]) (by simp only [State.offered, hh]), hh, hostAfterIdle, ← hh,
      State.withHost_self]

/-! ## Reset -/

/-- Settles O11: the values of the reset state. -/
theorem resetStateHasTheSpecsValues : Obligations.ResetStateHasTheSpecsValues := by
  unfold Obligations.ResetStateHasTheSpecsValues
  exact ⟨rfl, rfl, rfl, rfl, rfl, rfl, rfl, rfl, rfl⟩

/-- Settles O12: the first case of a step comes before `pc` is looked at. -/
theorem resetWinsOverEverything : Obligations.ResetWinsOverEverything := by
  unfold Obligations.ResetWinsOverEverything
  intro s rest hh
  rw [step_reset s (by simp only [State.resetAsserted, hh]), tookInput_reset hh]
  rfl

end Sys2Proof.Machine
end

section
/-! PROOFS. The invariant of the block (R22 to R25, R28, R35, R94, R138): met by the reset state and kept by every step.

Between the strobes and outside the polls the lines are at rest, and there a state meets the invariant as soon as its
stack is one that the tables make. `restsAt` names these stacks: every row that calls or returns leads to one of them,
so only the rows within SN and PL need their levels looked at one by one. -/

namespace Sys2Proof.Machine

open Sys2Proof.Safety

/-! ## Stacks at which the lines are at rest -/

/-- The stacks at which E is low, RW is write and D7 an output: all but those inside a strobe of SN or inside a poll. -/
def restsAt : List Label → Bool
  | .sn .n3 :: _ => false
  | .sn .n4 :: _ => false
  | .pl .p1 :: _ => true
  | .pl _ :: _ => false
  | _ => true

/-- What the invariant asks at such a stack: the levels at rest, and nothing of a poll. -/
theorem levels_of_restsAt {pc : List Label} (h : restsAt pc = true) :
    eAt pc = false ∧ rwAt pc = false ∧ d7oeAt pc = true ∧ pollSelectsIr pc = false ∧ atReadyExit pc = false ∧
      atFaultExit pc = false := by
  match pc, h with
  | [], _ => decide
  | .sn .n1 :: _, _ | .sn .n2 :: _, _ | .sn .n5 :: _, _ | .pl .p1 :: _, _ | .wb _ :: _, _ | .a1 :: _, _ | .b1 :: _, _
  | .wrs _ :: _, _ | .c1 :: _, _ | .q1 :: _, _ | .v1 :: _, _ | .init _ :: _, _ => exact ⟨rfl, rfl, rfl, rfl, rfl, rfl⟩

/-- With the lines at rest the invariant is a matter of the stack, the fault flag and the string space. -/
theorem inv_of_resting {t : State} (hstack : stackOk t.pc = true) (hrest : restsAt t.pc = true)
    (hlines : t.e = false ∧ t.rw = false ∧ t.d7oe = true) (hfault : t.fault = true → t.pollLimit ≠ none)
    (hstr : t.str.wf = true) : Inv t := by
  obtain ⟨he, hrw, hd, hir, hready, hgiveUp⟩ := levels_of_restsAt hrest
  obtain ⟨hlow, hwrite, hout⟩ := hlines
  exact
    { stack := hstack
      eLine := hlow.trans he.symm
      rwLine := hwrite.trans hrw.symm
      d7Dir := hout.trans hd.symm
      pollIr := fun h => absurd (hir.symm.trans h) (by decide)
      readyExit := fun h => absurd (hready.symm.trans h) (by decide)
      faultExit := fun h => absurd (hgiveUp.symm.trans h) (by decide)
      faultLimited := hfault
      strOk := hstr }

/-- The lines of a state that meets the invariant at such a stack. -/
theorem lines_of_restsAt {s : State} (hs : Inv s) (hrest : restsAt s.pc = true) :
    s.e = false ∧ s.rw = false ∧ s.d7oe = true := by
  obtain ⟨he, hrw, hd, -⟩ := levels_of_restsAt hrest
  exact ⟨hs.eLine.trans he, hs.rwLine.trans hrw, hs.d7Dir.trans hd⟩

/-! ## Returns -/

/-- WB returns to a stack at rest. -/
theorem returns_of_belowWb {rest : List Label} (h : belowWb rest = true) :
    stackOk rest = true ∧ restsAt rest = true := by
  revert h
  unfold belowWb
  split <;> simp [stackOk, restsAt]

/-- PL returns to a stack at rest. -/
theorem returns_of_belowPl {rest : List Label} (h : belowPl rest = true) :
    stackOk rest = true ∧ restsAt rest = true := by
  revert h
  unfold belowPl
  split <;> simp [stackOk, restsAt]

/-- SN returns to a stack at rest. -/
theorem returns_of_belowSn {rest : List Label} (h : belowSn rest = true) :
    stackOk rest = true ∧ restsAt rest = true := by
  revert h
  unfold belowSn
  split <;> simp [stackOk, restsAt]

/-! ## E, the fault flag and the string space, row by row -/

/-- The rows that raise E. -/
def eRaisers : List Label := [.sn .n2, .pl .p4, .pl .p9]

/-- The rows that lower E. -/
def eLowerers : List Label := [.sn .n4, .pl .p7, .pl .p11]

/-- E after a row: high after the raising rows, low after the lowering ones, else as it was (R23). -/
theorem performRow_e (l : Label) (s : State) :
    (performRow l s).e = if l ∈ eRaisers then true else if l ∈ eLowerers then false else s.e := by
  rw [performRow_eq_branchFreeRow]
  cases l with
  | sn k | pl k | wb k | wrs k => cases k <;> rfl
  | init k => cases k <;> simp [branchFreeRow, performRow, initRow, initSend, initSent, initWrite, eRaisers, eLowerers]
  | a1 | b1 | c1 | q1 | v1 => rfl

/-- The fault flag after a row: set after PF3, else as it was (R35). -/
theorem performRow_fault_eq (l : Label) (s : State) :
    (performRow l s).fault = if l = .pl .pf3 then true else s.fault := by
  rw [performRow_eq_branchFreeRow]
  cases l with
  | sn k | pl k | wb k | wrs k => cases k <;> rfl
  | init k => cases k <;> simp [branchFreeRow, performRow, initRow, initSend, initSent, initWrite]
  | a1 | b1 | c1 | q1 | v1 => rfl

/-- No row writes the string space or the parameter. -/
theorem performRow_str (l : Label) (s : State) :
    (performRow l s).str = s.str ∧ (performRow l s).pollLimit = s.pollLimit := by
  rw [performRow_eq_branchFreeRow]
  cases l with
  | sn k | pl k | wb k | wrs k => cases k <;> exact ⟨rfl, rfl⟩
  | init k => cases k <;> simp [branchFreeRow, performRow, initRow, initSend, initSent, initWrite]
  | a1 | b1 | c1 | q1 | v1 => exact ⟨rfl, rfl⟩

/-! ## The rows of the commands and of WB -/

/-- The rows outside SN and PL lead from a stack of the tables to one at rest. -/
theorem performRow_stack (s : State) {l : Label} {rest : List Label} (hstack : stackOk (l :: rest) = true)
    (hsn : ∀ k, l ≠ .sn k) (hpl : ∀ k, l ≠ .pl k) :
    stackOk (performRow l { s with pc := l :: rest }).pc = true ∧
      restsAt (performRow l { s with pc := l :: rest }).pc = true := by
  cases l with
  | sn k => exact absurd rfl (hsn k)
  | pl k => exact absurd rfl (hpl k)
  | wb k =>
    have hbelow : belowWb rest = true := hstack
    cases k with
    | w5 =>
      rw [performRow_eq_branchFreeRow]
      exact returns_of_belowWb hbelow
    | w1 | w2 | w3 | w4 => exact ⟨hbelow, rfl⟩
  | wrs k =>
    obtain rfl : rest = [] := List.isEmpty_iff.mp hstack
    cases k with
    | s2 =>
      rw [performRow_eq_branchFreeRow]
      show stackOk (if s.ch = 0 then [] else [.wrs .s3]) = true ∧ restsAt (if s.ch = 0 then [] else [.wrs .s3]) = true
      split <;> exact ⟨rfl, rfl⟩
    | s1 | s3 | s4 | s5 => exact ⟨rfl, rfl⟩
  | c1 =>
    obtain rfl : rest = [] := List.isEmpty_iff.mp hstack
    rw [performRow_eq_branchFreeRow]
    cases hb : rowByte s.arg <;> simp [branchFreeRow, hb, stackOk, restsAt, belowWb]
  | init k =>
    obtain rfl : rest = [] := List.isEmpty_iff.mp hstack
    cases k <;> exact ⟨rfl, rfl⟩
  | a1 | b1 | q1 | v1 =>
    obtain rfl : rest = [] := List.isEmpty_iff.mp hstack
    exact ⟨rfl, rfl⟩

/-- The rows outside SN and PL neither raise E nor leave the write direction. -/
theorem performRow_lines {s : State} {l : Label} (hlines : s.e = false ∧ s.rw = false ∧ s.d7oe = true)
    (hsn : ∀ k, l ≠ .sn k) (hpl : ∀ k, l ≠ .pl k) :
    (performRow l s).e = false ∧ (performRow l s).rw = false ∧ (performRow l s).d7oe = true := by
  obtain ⟨he, hrw, hd⟩ := hlines
  refine ⟨?_, ?_, ?_⟩
  · simp [performRow_e, eRaisers, eLowerers, hsn, hpl, he]
  · simp [performRow_rw, hpl, hrw]
  · simp [performRow_d7oe, hpl, hd]

/-- The rows outside SN and PL keep the invariant. -/
theorem inv_performRow_command {s : State} {l : Label} {rest : List Label} (hs : Inv { s with pc := l :: rest })
    (hsn : ∀ k, l ≠ .sn k) (hpl : ∀ k, l ≠ .pl k) : Inv (performRow l { s with pc := l :: rest }) := by
  obtain ⟨hstack, hrest⟩ := performRow_stack s hs.stack hsn hpl
  have hat : restsAt (l :: rest) = true := by
    cases l with
    | sn k => exact absurd rfl (hsn k)
    | pl k => exact absurd rfl (hpl k)
    | _ => rfl
  obtain ⟨hstr, hlimit⟩ := performRow_str l { s with pc := l :: rest }
  refine inv_of_resting hstack hrest (performRow_lines (lines_of_restsAt hs hat) hsn hpl) ?_ ?_
  · rw [performRow_fault_eq, if_neg (hpl .pf3), hlimit]
    exact hs.faultLimited
  · rw [hstr]
    exact hs.strOk

/-! ## The rows of SN and of PL -/

/-- The rows of SN keep the invariant: E is high from after N2 to N4. -/
theorem inv_performRow_sn {s : State} {k : SnLabel} {rest : List Label} (hs : Inv { s with pc := .sn k :: rest }) :
    Inv (performRow (.sn k) { s with pc := .sn k :: rest }) := by
  cases k with
  | n1 | n3 => exact { hs with }
  | n2 | n4 => exact { hs with eLine := rfl }
  | n5 =>
    obtain ⟨hstack, hrest⟩ := returns_of_belowSn hs.stack
    exact inv_of_resting hstack hrest ⟨hs.eLine, hs.rwLine, hs.d7Dir⟩ hs.faultLimited hs.strOk

/-- Row P13 keeps the invariant: it leaves the loop by the exit that the sample and the limit call for (R131, R225). -/
theorem inv_performRow_p13 {s : State} {rest : List Label} (hs : Inv { s with pc := .pl .p13 :: rest }) :
    Inv (performRow (.pl .p13) { s with pc := .pl .p13 :: rest }) := by
  rw [performRow_eq_branchFreeRow]
  simp only [branchFreeRow]
  cases hv : pollVerdict s.pollLimit s.bf (s.pollcnt + 1) with
  | ready => exact { hs with readyExit := fun _ => (pollVerdict_ready_iff _ _ _).mp hv }
  | again => exact { hs with }
  | giveUp =>
    obtain ⟨hbf, L, hL, -⟩ := (pollVerdict_giveUp_iff _ _ _).mp hv
    exact { hs with faultExit := fun _ => ⟨hbf, by simp [hL]⟩ }

/-- The rows of PL keep the invariant. -/
theorem inv_performRow_pl {s : State} {k : PlLabel} {rest : List Label} (hs : Inv { s with pc := .pl k :: rest }) :
    Inv (performRow (.pl k) { s with pc := .pl k :: rest }) := by
  cases k with
  | p1 | pf2 => exact { hs with d7Dir := rfl }
  | p2 => exact { hs with pollIr := fun _ => rfl }
  | p3 | p14 | pf1 => exact { hs with rwLine := rfl }
  | p4 | p7 | p9 | p11 => exact { hs with eLine := rfl }
  | p5 | p8 | p10 | p12 => exact { hs with }
  | p6 =>
    rw [performRow_eq_branchFreeRow]
    exact { hs with readyExit := nofun, faultExit := nofun }
  | p13 => exact inv_performRow_p13 hs
  | p15 =>
    obtain ⟨hstack, hrest⟩ := returns_of_belowPl hs.stack
    exact inv_of_resting hstack hrest ⟨hs.eLine, hs.rwLine, rfl⟩ hs.faultLimited hs.strOk
  | pf3 =>
    obtain ⟨-, hlimited⟩ := hs.faultExit rfl
    exact inv_of_resting rfl rfl ⟨hs.eLine, hs.rwLine, hs.d7Dir⟩ (fun _ => hlimited) hs.strOk

/-- Every row keeps the invariant. -/
theorem inv_performRow {s : State} {l : Label} {rest : List Label} (hs : Inv s) (hpc : s.pc = l :: rest) :
    Inv (performRow l s) := by
  have hpinned : s = { s with pc := l :: rest } := by rw [← hpc]
  rw [hpinned] at hs ⊢
  cases l with
  | sn k => exact inv_performRow_sn hs
  | pl k => exact inv_performRow_pl hs
  | _ => exact inv_performRow_command hs nofun nofun

/-! ## Reset, acceptance, and every step -/

/-- Settles O40: the reset state is idle with its lines at rest. -/
theorem resetMeetsInvariant : Obligations.ResetMeetsInvariant :=
  inv_of_resting rfl rfl ⟨rfl, rfl, rfl⟩ nofun rfl

/-- The invariant does not speak of the host's inputs. -/
theorem inv_withHost {s : State} (hs : Inv s) (h : List HostInput) : Inv (s.withHost h) := { hs with }

/-- Acceptance by an idle block keeps the invariant: it enters a table at rest, with a canonical string. -/
theorem inv_exec {i : Instr} {s t : State} (hs : Inv s) (hpc : s.pc = []) (h : exec i s = .next t) : Inv t := by
  have hlines := lines_of_restsAt hs (by rw [hpc]; rfl)
  obtain rfl | ⟨op, arg, entry, hentry, rfl⟩ | ⟨a, str, -, rfl⟩ := exec_cases h
  · exact hs
  · have hentries : ∀ pc ∈ entryStacks, stackOk pc = true ∧ restsAt pc = true := by decide
    obtain ⟨hstack, hrest⟩ := hentries entry hentry
    exact inv_of_resting hstack hrest hlines hs.faultLimited hs.strOk
  · exact inv_of_resting rfl rfl hlines hs.faultLimited (Str.ofArg_wf str)

/-- Settles O41: reset, an idle step, an acceptance and a row each keep the invariant. -/
theorem stepKeepsInvariant : Obligations.StepKeepsInvariant := by
  unfold Obligations.StepKeepsInvariant
  intro s t hs ht
  obtain ⟨rest, -, rfl⟩ | ⟨h, hpc, rfl | ⟨i, hi⟩⟩ | ⟨l, rest, h, hpc, rfl⟩ := step_cases ht
  · exact inv_of_resting rfl rfl ⟨rfl, rfl, rfl⟩ nofun rfl
  · exact inv_withHost hs h
  · exact inv_exec (inv_withHost hs h) hpc hi
  · exact inv_withHost (inv_performRow hs hpc) h

/-! ## What the invariant says at once -/

/-- At most one label stands below a label of WB. -/
theorem length_of_belowWb {rest : List Label} (h : belowWb rest = true) : rest.length ≤ 1 := by
  revert h
  unfold belowWb
  split <;> simp

/-- At most one label stands below a label of PL. -/
theorem length_of_belowPl {rest : List Label} (h : belowPl rest = true) : rest.length ≤ 1 := by
  revert h
  unfold belowPl
  split <;> simp

/-- At most two labels stand below a label of SN. -/
theorem length_of_belowSn {rest : List Label} (h : belowSn rest = true) : rest.length ≤ 2 := by
  revert h
  unfold belowSn
  split
  · next rest => exact fun h => Nat.succ_le_succ (length_of_belowWb h)
  · next rest => exact fun h => Nat.succ_le_succ (length_of_belowWb h)
  all_goals simp

/-- Settles O42: SN is called by WB, WB by a command, and no table calls deeper (R28). -/
theorem stackIsAtMostThreeDeep : Obligations.StackIsAtMostThreeDeep := by
  unfold Obligations.StackIsAtMostThreeDeep
  intro s hs
  have hstack := hs.stack
  cases hpc : s.pc with
  | nil => simp
  | cons l rest =>
    rw [hpc] at hstack
    refine Nat.succ_le_succ ?_
    cases l with
    | sn k => exact length_of_belowSn hstack
    | wb k => exact (length_of_belowWb hstack).trans (by decide)
    | pl k => exact (length_of_belowPl hstack).trans (by decide)
    | _ => simp [List.isEmpty_iff.mp hstack]

/-- Where RW is read, D7 is an input and the poll has selected the instruction register (R37, R94). -/
theorem d7oeAt_of_rwAt {pc : List Label} (h : rwAt pc = true) : d7oeAt pc = false ∧ pollSelectsIr pc = true := by
  obtain ⟨k, rest, rfl⟩ := exists_pl_of_rwAt h
  revert h
  cases k <;> simp [rwAt, d7oeAt, pollSelectsIr]

/-- Settles O43: the invariant's levels at idle and where RW is read. -/
theorem busAtRestWhenIdleAndNoContentionOnD7 : Obligations.BusAtRestWhenIdleAndNoContentionOnD7 := by
  unfold Obligations.BusAtRestWhenIdleAndNoContentionOnD7
  intro s hs
  refine ⟨fun hpc => lines_of_restsAt hs (by rw [hpc]; rfl), fun hrw => ?_, fun hrw _ => ?_⟩
  · obtain ⟨hin, -⟩ := d7oeAt_of_rwAt (hs.rwLine ▸ hrw)
    exact hs.d7Dir.trans hin
  · obtain ⟨-, hir⟩ := d7oeAt_of_rwAt (hs.rwLine ▸ hrw)
    exact hs.pollIr hir

/-- The labels at which E is high. -/
theorem top_of_eAt {pc : List Label} (h : eAt pc = true) :
    ∃ rest, pc = .sn .n3 :: rest ∨ pc = .sn .n4 :: rest ∨ pc = .pl .p5 :: rest ∨ pc = .pl .p6 :: rest ∨
      pc = .pl .p7 :: rest ∨ pc = .pl .p10 :: rest ∨ pc = .pl .p11 :: rest := by
  revert h
  unfold eAt
  split <;> simp

/-- Settles O46: the invariant's level of E, and the level of E after each row. -/
theorem enableIsHighOnlyInsideAStrobe : Obligations.EnableIsHighOnlyInsideAStrobe := by
  unfold Obligations.EnableIsHighOnlyInsideAStrobe
  refine ⟨fun s hs he => top_of_eAt (hs.eLine ▸ he), fun l s hl => ?_, fun l s hl => ?_, fun l s hl => ?_⟩
  · have hr : l ∉ eRaisers := by simp_all [eRaisers]
    have hw : l ∉ eLowerers := by simp_all [eLowerers]
    rw [performRow_e, if_neg hr, if_neg hw]
  · rw [performRow_e]
    exact if_pos hl
  · have hr : l ∉ eRaisers := by fin_cases hl <;> decide
    rw [performRow_e, if_neg hr]
    exact if_pos hl

end Sys2Proof.Machine
end

section
/-! PROOFS. Rules of the whole machine, row by row: the pins and their events (R73, R110), the command latches (R30,
R89), the LCD's answers (R69), the sticky fault flag (R35), and the port of a busy block (R118). -/

namespace Sys2Proof.Machine

open Sys2Proof.Safety

/-! ## Pins and events -/

/-- The bus trace grows by at most one event, and the pins of `t` are those of `s` after it. -/
def PinsFollow (s t : State) : Prop :=
  ∃ xs : List BusEvent, t.bus = s.bus ++ xs ∧ xs.length ≤ 1 ∧
    { t.lineView with last := none } = { xs.foldl LineView.after s.lineView with last := none } ∧
    (t.pwr ≠ s.pwr → xs = [.lvl .pwr t.pwr])

/-- No event, no pin changed. -/
theorem PinsFollow.of_silent {s t : State} (hbus : t.bus = s.bus) (hlines : t.lineView = s.lineView)
    (hpwr : t.pwr = s.pwr) : PinsFollow s t :=
  ⟨[], by rw [hbus, List.append_nil], Nat.zero_le 1, by rw [hlines]; rfl, fun h => absurd hpwr h⟩

/-- One event, the lines after it as it says, the power line as it was. -/
theorem PinsFollow.of_event {s t : State} {x : BusEvent} (hbus : t.bus = s.bus ++ [x])
    (hlines : { t.lineView with last := none } = { s.lineView.after x with last := none }) (hpwr : t.pwr = s.pwr) :
    PinsFollow s t :=
  ⟨[x], hbus, le_rfl, hlines, fun h => absurd hpwr h⟩

/-- The rows of INIT that record a nibble and wait, as one update of the state. -/
theorem initSent_eq (t : Micros) (next : InitLabel) (s : State) :
    initSent t next s = { s with
      pc := .init next :: s.pc.tail, bus := s.bus ++ [.wait t]
      ops := s.ops ++ [.nibbleSend (highNibble s.nib), .delay t] } := by
  simp [initSent, State.emitOp, State.wait, State.emit, State.goTo]

/-- INIT's record of a nibble and the wait after it make one event. -/
theorem initSent_pinsFollow (t : Micros) (next : InitLabel) (s : State) : PinsFollow s (initSent t next s) := by
  rw [initSent_eq]
  exact .of_event rfl rfl rfl

/-- Every row changes the pins by its event only. -/
theorem performRow_pinsFollow (l : Label) (s : State) : PinsFollow s (performRow l s) := by
  rw [performRow_eq_branchFreeRow]
  cases l with
  | sn k => cases k <;> exact .of_event rfl rfl rfl
  | pl k =>
    cases k with
    | p13 | pf3 => exact .of_silent rfl rfl rfl
    | _ => exact .of_event rfl rfl rfl
  | wb k =>
    cases k with
    | w1 | w2 => exact .of_event rfl rfl rfl
    | w3 | w4 | w5 => exact .of_silent rfl rfl rfl
  | wrs k => cases k <;> exact .of_silent rfl rfl rfl
  | init k =>
    cases k with
    | i0 | i1 | i2 => exact .of_event rfl rfl rfl
    | i4 | i6 | i8 => exact initSent_pinsFollow _ _ s
    | _ => exact .of_silent rfl rfl rfl
  | v1 => exact ⟨[_], rfl, le_rfl, rfl, fun _ => rfl⟩
  | a1 | b1 | c1 | q1 => exact .of_silent rfl rfl rfl

/-- Acceptance changes no pin. -/
theorem exec_pinsFollow {i : Instr} {s t : State} (h : exec i s = .next t) : PinsFollow s t := by
  obtain rfl | ⟨op, arg, entry, -, rfl⟩ | ⟨a, str, -, rfl⟩ := exec_cases h
  all_goals exact .of_silent rfl rfl rfl

/-- Settles O10: an idle step and an acceptance are silent, a row changes the pins by its event only. -/
theorem pinsChangeOnlyWithTheirEvent : Obligations.PinsChangeOnlyWithTheirEvent := by
  unfold Obligations.PinsChangeOnlyWithTheirEvent
  intro s t hr ht
  obtain ⟨rest, hh, -⟩ | ⟨h, -, rfl | ⟨i, hi⟩⟩ | ⟨l, rest, h, -, rfl⟩ := step_cases ht
  · exact absurd hh (hr rest)
  · exact PinsFollow.of_silent rfl rfl rfl
  · have hin : PinsFollow (s.withHost h) t := exec_pinsFollow hi
    exact hin
  · exact performRow_pinsFollow l s

/-! ## The nibble on its lines -/

/-- Bit `i` of the high nibble is bit `4 + i` of the byte. -/
theorem highNibble_getLsbD (b : Byte) {i : Nat} (hi : i < 4) : (highNibble b).getLsbD i = b.getLsbD (4 + i) := by
  simp [highNibble, hi]

/-- Settles O18: N1 puts the high nibble of `nib` on the latch, and D7 to D4 carry the latch (R36, R56). -/
theorem nibbleBitsLieOnTheirLines : Obligations.NibbleBitsLieOnTheirLines := by
  unfold Obligations.NibbleBitsLieOnTheirLines
  intro s hd
  have hoe : (performRow (.sn .n1) s).d7oe = true := hd
  simp only [State.pinD7, State.pinD6, State.pinD5, State.pinD4, hoe, performRow_n1_dOut, Option.some.injEq]
  exact ⟨highNibble_getLsbD _ (by decide), highNibble_getLsbD _ (by decide), highNibble_getLsbD _ (by decide),
    highNibble_getLsbD _ (by decide)⟩

/-! ## The command latches (R30) -/

/-- No row writes `op` or `arg`. -/
theorem performRow_latches (l : Label) (s : State) : (performRow l s).op = s.op ∧ (performRow l s).arg = s.arg := by
  rw [performRow_eq_branchFreeRow]
  cases l with
  | sn k | pl k | wb k | wrs k => cases k <;> exact ⟨rfl, rfl⟩
  | init k => cases k <;> simp [branchFreeRow, performRow, initRow, initSend, initSent, initWrite]
  | a1 | b1 | c1 | q1 | v1 => exact ⟨rfl, rfl⟩

/-- The rows that read `arg`. -/
def argReaders : List Label := [.a1, .b1, .c1, .v1]

/-- A row that does not read `arg` acts the same whatever it is. -/
theorem performRow_other_arg (l : Label) (s : State) (v : Byte) (hl : l ∉ argReaders) :
    performRow l { s with arg := v } = { performRow l s with arg := v } := by
  simp only [performRow_eq_branchFreeRow]
  cases l with
  | sn k | pl k | wb k | wrs k | init k => cases k <;> rfl
  | a1 | b1 | c1 | v1 => simp [argReaders] at hl
  | q1 => rfl

/-- Row V1 does not look at bits 7:1 of `arg` (R89). -/
theorem performRow_v1_other_arg (s : State) (v : Byte) (hv : v.getLsbD 0 = s.arg.getLsbD 0) :
    performRow .v1 { s with arg := v } = { performRow .v1 s with arg := v } := by
  simp only [performRow, v1Row, levelOperand, hv]
  rfl

/-- No row reads `op`. -/
theorem performRow_other_op (l : Label) (s : State) (o : OpCode) :
    performRow l { s with op := o } = { performRow l s with op := o } := by
  simp only [performRow_eq_branchFreeRow]
  cases l with
  | sn k | pl k | wb k | wrs k | init k => cases k <;> rfl
  | a1 | b1 | c1 | q1 | v1 => rfl

/-- Settles O49: what each row writes and reads of the command latches. -/
theorem commandLatchesAreHeldAndReadOnlyByTheirRows : Obligations.CommandLatchesAreHeldAndReadOnlyByTheirRows := by
  unfold Obligations.CommandLatchesAreHeldAndReadOnlyByTheirRows
  exact ⟨performRow_latches, performRow_other_arg, performRow_v1_other_arg, performRow_other_op⟩

/-! ## The LCD's answers (R69) -/

/-- A row other than P6 acts the same whatever the LCD's answers are, and uses none. -/
theorem performRow_other_lcd (l : Label) (s : State) (lcd : List Level) (n : Nat) (hl : l ≠ .pl .p6) :
    performRow l { s with lcd := lcd, d7Draws := n } = { performRow l s with lcd := lcd, d7Draws := n } := by
  simp only [performRow_eq_branchFreeRow]
  cases l with
  | pl k =>
    cases k with
    | p6 => exact absurd rfl hl
    | _ => rfl
  | sn k | wb k | wrs k | init k => cases k <;> rfl
  | a1 | b1 | c1 | q1 | v1 => rfl

/-- Settles O50: P6 is the only row that reads the LCD. -/
theorem lcdIsReadAtP6Only : Obligations.LcdIsReadAtP6Only := performRow_other_lcd

/-! ## The fault flag (R35) -/

/-- Acceptance leaves the fault flag as it was. -/
theorem exec_fault {i : Instr} {s t : State} (h : exec i s = .next t) : t.fault = s.fault := by
  obtain rfl | ⟨op, arg, entry, -, rfl⟩ | ⟨a, str, -, rfl⟩ := exec_cases h
  all_goals rfl

/-- A step without reset leaves the fault flag as it was, or performs PF3 and sets it. -/
theorem step_fault {s t : State} (hr : ∀ rest, s.host ≠ .reset :: rest) (ht : step s = .next t) :
    t.fault = s.fault ∨ t.fault = true ∧ ∃ rest, s.pc = .pl .pf3 :: rest := by
  obtain ⟨rest, hh, -⟩ | ⟨h, -, rfl | ⟨i, hi⟩⟩ | ⟨l, rest, h, hpc, rfl⟩ := step_cases ht
  · exact absurd hh (hr rest)
  · exact .inl rfl
  · have hin : t.fault = (s.withHost h).fault := exec_fault hi
    exact .inl hin
  · have hrow : ((performRow l s).withHost h).fault = _ := performRow_fault_eq l s
    split at hrow
    · next hl => exact .inr ⟨hrow, rest, hl ▸ hpc⟩
    · exact .inl hrow

/-- Settles O51: a step without reset never lowers the fault flag, and raises it at PF3 alone. -/
theorem faultIsStickyAndSetOnlyAtPf3 : Obligations.FaultIsStickyAndSetOnlyAtPf3 := by
  unfold Obligations.FaultIsStickyAndSetOnlyAtPf3
  intro s t hr ht
  obtain hkept | ⟨hset, hpc⟩ := step_fault hr ht
  · exact ⟨fun h => hkept.trans h, fun hlow hhigh => absurd (hkept.symm.trans hhigh) (by simp [hlow])⟩
  · exact ⟨fun _ => hset, fun _ _ => hpc⟩

/-! ## The port of a busy block (R118) -/

/-- Settles O9: the row of the top label does not look at the host's inputs. -/
theorem busyBlockSeesNoOffer : Obligations.BusyBlockSeesNoOffer := by
  unfold Obligations.BusyBlockSeesNoOffer
  intro s t h hpc hs hh ht
  obtain ⟨l, rest, hp⟩ := List.exists_cons_of_ne_nil hpc
  rw [step_busy s l rest (resetAsserted_eq_false s hs) hp] at ht
  obtain rfl := Host.Outcome.next.inj ht
  have hother := step_busy (s.withHost h) l rest (resetAsserted_eq_false _ hh) hp
  rw [performRow_withHost] at hother
  exact ⟨_, hother⟩

end Sys2Proof.Machine
end

section
/-! PROOFS. The poll PL (R131, R138, R221): its entry, one whole read frame an iteration, its two exits; with the rows
put together, the poll that meets a sample of 0, the one that never does, and the one that gives up. -/

namespace Sys2Proof.Machine

open Sys2Proof.Safety

/-! ## Rows of a poll, as one relation -/

/-- Each of the next `n` rows is one of PL and leaves what stands below it on the stack as it was. -/
def pollsFor : Nat → State → Prop
  | 0, _ => True
  | n + 1, s =>
    ∃ l rest, s.pc = .pl l :: rest ∧ (performRow (.pl l) s).pc.tail = s.pc.tail ∧ pollsFor n (performRow (.pl l) s)

/-- A block in a poll is busy. -/
theorem pollsFor.busyFor {n : Nat} : ∀ {s : State}, pollsFor n s → busyFor n s := by
  induction n with
  | zero => intro s _; trivial
  | succ n ih =>
    intro s ⟨l, rest, hpc, _, hp⟩
    exact ⟨_, rest, hpc, ih hp⟩

/-- Rows of a poll in two parts. -/
theorem pollsFor.add {n m : Nat} : ∀ {s : State}, pollsFor n s → pollsFor m (rows n s) → pollsFor (n + m) s := by
  induction n with
  | zero => intro s _ h; rwa [Nat.zero_add]
  | succ n ih =>
    intro s ⟨l, rest, hpc, htail, hp⟩ h
    rw [rows_succ n s _ rest hpc] at h
    rw [Nat.succ_add]
    exact ⟨l, rest, hpc, htail, ih hp h⟩

/-- The first part of a poll's rows. -/
theorem pollsFor.of_le {n m : Nat} (hm : m ≤ n) : ∀ {s : State}, pollsFor n s → pollsFor m s := by
  induction m generalizing n with
  | zero => intro s _; trivial
  | succ m ih =>
    obtain ⟨d, rfl⟩ := Nat.exists_eq_add_of_le' hm
    intro s ⟨l, rest, hpc, htail, hp⟩
    exact ⟨l, rest, hpc, htail, ih (Nat.le_add_left m d) hp⟩

/-- At each of the rows a label of PL is on top, over what stood below at the start. -/
theorem pollsFor.pc_eq {n m : Nat} (hm : m < n) {s : State} (h : pollsFor n s) :
    ∃ l : PlLabel, (rows m s).pc = .pl l :: s.pc.tail := by
  induction m generalizing n s with
  | zero =>
    obtain ⟨d, rfl⟩ := Nat.exists_eq_add_of_le' hm
    obtain ⟨l, rest, hpc, -⟩ := h
    exact ⟨l, by rw [rows, hpc, List.tail_cons]⟩
  | succ m ih =>
    obtain ⟨d, rfl⟩ := Nat.exists_eq_add_of_lt hm
    obtain ⟨l, rest, hpc, htail, hp⟩ := h
    rw [rows_succ m s _ rest hpc, ← htail]
    exact ih (by omega) hp

/-- `n` rows of a poll, each of which leaves the stack below as it was, lead from `s` to `t`. -/
def PollsTo (n : Nat) (s t : State) : Prop := pollsFor n s ∧ rows n s = t

/-- No row at all. -/
theorem PollsTo.refl (s : State) : PollsTo 0 s s := ⟨trivial, rfl⟩

/-- One row of PL that goes on to another. -/
theorem PollsTo.single {s t : State} {l : PlLabel} {rest : List Label} (hpc : s.pc = .pl l :: rest)
    (hrow : performRow (.pl l) s = t) (htail : t.pc.tail = s.pc.tail) : PollsTo 1 s t := by
  subst hrow
  exact ⟨⟨l, rest, hpc, htail, trivial⟩, rows_succ 0 s _ rest hpc⟩

/-- Rows of a poll put together. -/
theorem PollsTo.trans {n m : Nat} {s t u : State} (h : PollsTo n s t) (h' : PollsTo m t u) : PollsTo (n + m) s u := by
  obtain ⟨hp, rfl⟩ := h
  obtain ⟨hp', rfl⟩ := h'
  exact ⟨hp.add hp', rows_add n m s⟩

/-- Rows of a poll are rows. -/
theorem PollsTo.rowsTo {n : Nat} {s t : State} (h : PollsTo n s t) : RowsTo n s t := ⟨h.1.busyFor, h.2⟩

/-! ## The entry of a poll (P1 to P3) -/

/-- P1 to P3 turn the bus round and select the instruction register. -/
theorem pollsTo_head {s : State} {rest : List Label} (hpc : s.pc = .pl .p1 :: rest) :
    PollsTo 3 s { s with
      d7oe := false, rw := true, rs := false, pollcnt := 0, pc := .pl .p4 :: rest, bus := s.bus ++ pollHead } := by
  refine ⟨⟨_, _, hpc, rfl, _, _, rfl, rfl, _, _, rfl, rfl, trivial⟩, ?_⟩
  calc rows 3 s
      = rows 2 (performRow (.pl .p1) s) := rows_succ 2 s _ rest hpc
    _ = { s with
          d7oe := false, rw := true, rs := false, pollcnt := 0, pc := .pl .p4 :: s.pc.tail
          bus := s.bus ++ [.dir .input] ++ [.lvl .rs false] ++ [.lvl .rw true] } := rfl
    _ = _ := by simp [hpc, pollHead]

/-! ## One iteration (P4 to P13) -/

/-- Two rows raise E and wait: P4 and P5, and again P9 and P10. -/
theorem pollsTo_raise {s : State} {l n : PlLabel} {rest : List Label} (hl : l = .p4 ∧ n = .p6 ∨ l = .p9 ∧ n = .p11)
    (hpc : s.pc = .pl l :: rest) :
    PollsTo 2 s { s with e := true, pc := .pl n :: rest, bus := s.bus ++ [.lvl .e true, .wait Config.tEH] } := by
  obtain ⟨rfl, rfl⟩ | ⟨rfl, rfl⟩ := hl
  all_goals
    refine ⟨⟨_, _, hpc, rfl, _, _, rfl, rfl, trivial⟩, ?_⟩
    calc rows 2 s
        = rows 1 (performRow _ s) := rows_succ 1 s _ rest hpc
      _ = { s with
            e := true, pc := .pl _ :: s.pc.tail, bus := s.bus ++ [.lvl .e true] ++ [.wait Config.tEH] } := rfl
      _ = _ := by simp [hpc]

/-- Two rows lower E and wait: P7 and P8, and again P11 and P12. -/
theorem pollsTo_lower {s : State} {l n : PlLabel} {rest : List Label} (hl : l = .p7 ∧ n = .p9 ∨ l = .p11 ∧ n = .p13)
    (hpc : s.pc = .pl l :: rest) :
    PollsTo 2 s { s with e := false, pc := .pl n :: rest, bus := s.bus ++ [.lvl .e false, .wait Config.tEL] } := by
  obtain ⟨rfl, rfl⟩ | ⟨rfl, rfl⟩ := hl
  all_goals
    refine ⟨⟨_, _, hpc, rfl, _, _, rfl, rfl, trivial⟩, ?_⟩
    calc rows 2 s
        = rows 1 (performRow _ s) := rows_succ 1 s _ rest hpc
      _ = { s with
            e := false, pc := .pl _ :: s.pc.tail, bus := s.bus ++ [.lvl .e false] ++ [.wait Config.tEL] } := rfl
      _ = _ := by simp [hpc]

/-- P6 with D7 an input takes the LCD's next answer. -/
theorem pollsTo_sample {s : State} {rest : List Label} {b : Level} (hpc : s.pc = .pl .p6 :: rest)
    (hd : s.d7oe = false) (hb : s.drawAt 0 = b) :
    PollsTo 1 s { afterDraws 1 s with bf := b, pc := .pl .p7 :: rest, bus := s.bus ++ [.sample b] } := by
  refine PollsTo.single hpc ?_ (by rw [hpc]; rfl)
  have hlevel : s.levelOnD7 = b := by simp only [State.levelOnD7, hd, hb]
  rw [performRow_eq_branchFreeRow]
  simp only [branchFreeRow, State.goTo, hlevel, hd, answersUsed]
  simp only [afterDraws, hpc, List.tail_cons]

/-- P13 counts the read and goes where the verdict says. -/
theorem pollsTo_verdict {s : State} {rest : List Label} (hpc : s.pc = .pl .p13 :: rest) :
    PollsTo 1 s { s with
      pollcnt := s.pollcnt + 1, pc := (pollVerdict s.pollLimit s.bf (s.pollcnt + 1)).target :: rest } := by
  refine PollsTo.single hpc ?_ (by rw [hpc]; rfl)
  rw [performRow_eq_branchFreeRow]
  simp only [branchFreeRow, State.goTo, hpc, List.tail_cons]

/-- The ten rows of an iteration: one whole read frame with the LCD's next answer, then the verdict. -/
theorem pollsTo_iteration {s : State} {rest : List Label} {b : Level} (hpc : s.pc = .pl .p4 :: rest)
    (hd : s.d7oe = false) (hb : s.drawAt 0 = b) :
    PollsTo 10 s { afterDraws 1 s with
      e := false, bf := b, pollcnt := s.pollcnt + 1
      pc := (pollVerdict s.pollLimit b (s.pollcnt + 1)).target :: rest, bus := s.bus ++ readFrame b } := by
  have hfirst := ((pollsTo_raise (.inl ⟨rfl, rfl⟩) hpc).trans (pollsTo_sample rfl hd hb)).trans
    (pollsTo_lower (.inl ⟨rfl, rfl⟩) rfl)
  have hsecond := (hfirst.trans (pollsTo_raise (.inr ⟨rfl, rfl⟩) rfl)).trans (pollsTo_lower (.inr ⟨rfl, rfl⟩) rfl)
  have hall := hsecond.trans (pollsTo_verdict rfl)
  simpa [afterDraws, readFrame] using hall

/-- Where the verdict leads: out of the poll after a sample of 0; after a sample of 1 round again, or, at or past a
limit, to the fault exit (R131, R225). -/
theorem target_pollVerdict (limit : Option Nat) (b : Level) (cnt : Nat) :
    ∃ l : PlLabel, (pollVerdict limit b cnt).target = .pl l ∧ (b = false → l = .p14) ∧
      (b = true → limit = none → l = .p4) ∧ (∀ L, b = true → limit = some L → L ≤ cnt → l = .pf1) ∧
      (∀ L, b = true → limit = some L → cnt < L → l = .p4) := by
  cases b with
  | false => exact ⟨.p14, by simp [pollVerdict, PollVerdict.target]⟩
  | true =>
    cases limit with
    | none => exact ⟨.p4, by simp [pollVerdict, PollVerdict.target]⟩
    | some L =>
      by_cases hL : L ≤ cnt
      · exact ⟨.pf1, by simp [pollVerdict, PollVerdict.target, hL]⟩
      · exact ⟨.p4, by simp [pollVerdict, PollVerdict.target, hL, Nat.lt_of_not_le hL]⟩

/-- A read frame in read direction is two read strobes, the sample in the first (R74, R84). -/
theorem strobesFrom_readFrame {v : LineView} (b : Level) (hrw : v.rw = true) :
    strobesFrom v (readFrame b) = [.rd v.rs (some b), .rd v.rs none] := by
  simp [strobesFrom, readFrame, LineView.strobeAt, LineView.after, hrw]

/-- Settles O21: the ten rows of an iteration, and where its verdict leads. -/
theorem pollIterationIsOneWholeReadFrame : Obligations.PollIterationIsOneWholeReadFrame := by
  unfold Obligations.PollIterationIsOneWholeReadFrame
  refine ⟨fun v b hrw => strobesFrom_readFrame b hrw, fun s rest hpc hd hn => ?_⟩
  obtain ⟨l, hl, hexits⟩ := target_pollVerdict s.pollLimit (s.drawAt 0) (s.pollcnt + 1)
  have hto := pollsTo_iteration hpc hd rfl
  rw [hl] at hto
  exact ⟨l, hto.rowsTo.run_eq hn, hexits⟩

/-- Busy below any limit: the poll reads again. -/
theorem pollVerdict_again {limit : Option Nat} {cnt : Nat} (h : ∀ L, limit = some L → cnt < L) :
    pollVerdict limit true cnt = .again := by
  cases limit with
  | none => rfl
  | some L => exact if_neg (Nat.not_le.mpr (h L rfl))

/-- A sample of 0 ends the poll. -/
theorem pollVerdict_ready (limit : Option Nat) (cnt : Nat) : pollVerdict limit false cnt = .ready :=
  (pollVerdict_ready_iff limit false cnt).mpr rfl

/-- Free answers used by a first part and then by a second. -/
theorem freeDraws_add (d n m len : Nat) : d + (n - len) + (m - (len - n)) = d + (n + m - len) := by omega

/-- `k` iterations that all sample 1, below any limit, lead to P4 again. -/
theorem pollsTo_busyReads (k : Nat) {rest : List Label} : ∀ {s : State}, s.pc = .pl .p4 :: rest → s.d7oe = false →
    (∀ i, i < k → s.drawAt i = true) → (∀ L, s.pollLimit = some L → s.pollcnt + k < L) →
    PollsTo (10 * k) s { afterDraws k s with
      e := if k = 0 then s.e else false, bf := if k = 0 then s.bf else true, pollcnt := s.pollcnt + k
      bus := s.bus ++ busyReads k } := by
  induction k with
  | zero =>
    intro s _ _ _ _
    simpa [busyReads] using PollsTo.refl s
  | succ k ih =>
    intro s hpc hd hbusy hlimit
    have hfirst := pollsTo_iteration hpc hd (hbusy 0 (Nat.succ_pos k))
    have hagain : pollVerdict s.pollLimit true (s.pollcnt + 1) = .again :=
      pollVerdict_again fun L hL => by have := hlimit L hL; omega
    rw [hagain] at hfirst
    have hbusy' : ∀ i, i < k → (afterDraws 1 s).drawAt i = true := fun i hi => by
      rw [drawAt_afterDraws]
      exact hbusy (1 + i) (by omega)
    have hrest := hfirst.trans (ih rfl hd hbusy' fun L hL => by have := hlimit L hL; show s.pollcnt + 1 + k < L; omega)
    have hcount : 10 * (k + 1) = 10 + 10 * k := by omega
    have hreads : s.pollcnt + 1 + k = s.pollcnt + (k + 1) := by omega
    rw [hcount]
    simpa [afterDraws, busyReads, hpc, PollVerdict.target, freeDraws_add, hreads, Nat.add_comm 1 k] using hrest

/-! ## A poll that meets a sample of 0 -/

/-- What a poll that sampled 1 `k` times and then 0 leaves, gone back to `rest` (R131). -/
def afterPoll (k : Nat) (rest : List Label) (s : State) : State :=
  { afterDraws (k + 1) s with
    d7oe := true, e := false, rw := false, rs := false, bf := false, pollcnt := k + 1, pc := rest
    bus := s.bus ++ pollEvents k, ops := s.ops ++ [.busyPoll (k + 1)] }

/-- P14 and P15 give the bus back, record the poll and return. -/
theorem rowsTo_pollReturn {s : State} {rest : List Label} (hpc : s.pc = .pl .p14 :: rest) :
    RowsTo 2 s { s with
      d7oe := true, rw := false, pc := rest, bus := s.bus ++ pollTail, ops := s.ops ++ [.busyPoll s.pollcnt] } := by
  refine ⟨⟨_, _, hpc, _, _, rfl, trivial⟩, ?_⟩
  calc rows 2 s
      = rows 1 (performRow (.pl .p14) s) := rows_succ 1 s _ rest hpc
    _ = { s with
          d7oe := true, rw := false, pc := s.pc.tail, bus := s.bus ++ [.lvl .rw false] ++ [.dir .output]
          ops := s.ops ++ [.busyPoll s.pollcnt] } := rfl
    _ = _ := by simp [hpc, pollTail]

/-- The entry of a poll and `k` busy reads below any limit: at P4 again. -/
theorem pollsTo_busy {s : State} {rest : List Label} {k : Nat} (hpc : s.pc = .pl .p1 :: rest)
    (hbusy : ∀ i, i < k → s.drawAt i = true) (hlimit : ∀ L, s.pollLimit = some L → k < L) :
    PollsTo (3 + 10 * k) s { afterDraws k s with
      d7oe := false, e := if k = 0 then s.e else false, rw := true, rs := false
      bf := if k = 0 then s.bf else true, pollcnt := k, pc := .pl .p4 :: rest
      bus := s.bus ++ pollHead ++ busyReads k } := by
  have hall := (pollsTo_head hpc).trans (pollsTo_busyReads k rfl rfl hbusy fun L hL => by simpa using hlimit L hL)
  simpa only [afterDraws, Nat.zero_add] using hall

/-- The whole of a poll that meets a sample of 0 below any limit. -/
theorem rowsTo_poll {s : State} {rest : List Label} {k : Nat} (hpc : s.pc = .pl .p1 :: rest)
    (hanswers : Answers s (busyThenReady k)) (hlimit : ∀ L, s.pollLimit = some L → k < L) :
    RowsTo (15 + 10 * k) s (afterPoll k rest s) := by
  obtain ⟨hbusy, hready⟩ := (answers_busyThenReady s k).mp hanswers
  have hlast : (afterDraws k s).drawAt 0 = false := (drawAt_afterDraws k 0 s).trans hready
  have hread := (pollsTo_busy hpc hbusy hlimit).trans (pollsTo_iteration rfl rfl hlast)
  rw [pollVerdict_ready] at hread
  have hall := hread.rowsTo.trans (rowsTo_pollReturn rfl)
  have hcount : 15 + 10 * k = 3 + 10 * k + 10 + 2 := by omega
  rw [hcount]
  simpa [afterPoll, afterDraws, pollEvents, freeDraws_add] using hall

/-- Settles O22: the whole of the poll, beside the host's inputs used up. -/
theorem pollReturnsAfterFirstReadySample : Obligations.PollReturnsAfterFirstReadySample := by
  unfold Obligations.PollReturnsAfterFirstReadySample
  intro s rest k hpc hbusy hready hlimit hn
  exact (rowsTo_poll hpc ((answers_busyThenReady s k).mpr ⟨hbusy, hready⟩) hlimit).run_eq hn

/-! ## A poll that never meets one -/

/-- Along the rows of a poll that is still going on, `pc` holds a label of PL and no fault is recorded. -/
theorem PollsTo.run_le {n m : Nat} {s t : State} {rest : List Label} (h : PollsTo n s t) {l : PlLabel}
    (hs : s.pc.tail = rest) (ht : t.pc = .pl l :: rest) (hn : noReset n s.host = true) (hm : m ≤ n) :
    ∃ (u : State) (l : PlLabel), run m s = .next u ∧ u.pc = .pl l :: rest ∧ u.fault = s.fault := by
  obtain ⟨hp, rfl⟩ := h
  subst hs
  obtain ⟨l', hpc⟩ : ∃ l' : PlLabel, (rows m s).pc = .pl l' :: s.pc.tail := by
    obtain hlt | rfl := Nat.lt_or_eq_of_le hm
    · exact hp.pc_eq hlt
    · exact ⟨l, ht⟩
  refine ⟨_, l', run_busy_le n m s hp.busyFor hn hm, hpc, ?_⟩
  exact rows_fault m s (hp.of_le hm).busyFor (by rw [hpc]; simp)

/-- Settles O23: the entry and `k` busy reads, with no limit to stop them. -/
theorem busyControllerBlocksPollForEver : Obligations.BusyControllerBlocksPollForEver := by
  unfold Obligations.BusyControllerBlocksPollForEver
  intro s rest k hpc hnone hbusy hn
  have hto := pollsTo_busy hpc hbusy (by simp [hnone])
  exact ⟨hto.rowsTo.run_eq hn, fun n hle => hto.run_le (by rw [hpc]; rfl) rfl hn hle⟩

/-! ## A poll that gives up (R221) -/

/-- PF1 to PF3 give the bus back, record the fault and abandon the command. -/
theorem rowsTo_pollFault {s : State} {rest : List Label} (hpc : s.pc = .pl .pf1 :: rest) :
    RowsTo 3 s { s with
      d7oe := true, rw := false, pc := [], fault := true, bus := s.bus ++ pollTail
      ops := s.ops ++ [.fault .controllerUnresponsive s.pollcnt] } := by
  refine ⟨⟨_, _, hpc, _, _, rfl, _, _, rfl, trivial⟩, ?_⟩
  calc rows 3 s
      = rows 2 (performRow (.pl .pf1) s) := rows_succ 2 s _ rest hpc
    _ = { s with
          d7oe := true, rw := false, pc := [], fault := true, bus := s.bus ++ [.lvl .rw false] ++ [.dir .output]
          ops := s.ops ++ [.fault .controllerUnresponsive s.pollcnt] } := rfl
    _ = _ := by simp [pollTail]

/-- At or past a limit a busy poll gives up. -/
theorem pollVerdict_giveUp {L cnt : Nat} (h : L ≤ cnt) : pollVerdict (some L) true cnt = .giveUp :=
  (pollVerdict_giveUp_iff _ _ _).mpr ⟨rfl, L, rfl, h⟩

/-- `k + 1` iterations are the busy reads of `k` and one more frame. -/
theorem busyReads_succ (k : Nat) : busyReads (k + 1) = busyReads k ++ readFrame true := by
  induction k with
  | zero => rfl
  | succ k ih =>
    calc busyReads (k + 1 + 1)
        = readFrame true ++ busyReads (k + 1) := rfl
      _ = readFrame true ++ busyReads k ++ readFrame true := by rw [ih, List.append_assoc]
      _ = busyReads (k + 1) ++ readFrame true := rfl

/-- Settles O24: busy reads one short of the limit, the one that meets it, and the fault exit. -/
theorem unresponsiveControllerFaultsAtTheLimit : Obligations.UnresponsiveControllerFaultsAtTheLimit := by
  unfold Obligations.UnresponsiveControllerFaultsAtTheLimit
  intro s rest L hpc hL hpos hbusy hn
  obtain ⟨k, rfl⟩ := Nat.exists_eq_add_of_le' hpos
  have hlast : (afterDraws k s).drawAt 0 = true := (drawAt_afterDraws k 0 s).trans (hbusy k (Nat.lt_succ_self k))
  have hbelow : ∀ L, s.pollLimit = some L → k < L := by
    intro L hL'
    cases hL.symm.trans hL'
    exact Nat.lt_succ_self k
  have hread := (pollsTo_busy hpc (fun i hi => hbusy i (Nat.lt_succ_of_lt hi)) hbelow).trans
    (pollsTo_iteration rfl rfl hlast)
  have hgiveUp : pollVerdict (afterDraws k s).pollLimit true (k + 1) = .giveUp := by
    rw [show (afterDraws k s).pollLimit = some (k + 1) from hL]
    exact pollVerdict_giveUp le_rfl
  rw [hgiveUp] at hread
  have hall := hread.rowsTo.trans (rowsTo_pollFault rfl)
  have hcount : 6 + 10 * (k + 1) = 3 + 10 * k + 10 + 3 := by omega
  rw [hcount] at hn ⊢
  rw [hall.run_eq hn]
  simp [afterDraws, busyReads_succ, State.withHost, freeDraws_add]

end Sys2Proof.Machine
end

section
/-! PROOFS. The commands that do not loop, from acceptance to idle (R115, R140, R161, R162, R164): a first row, then the
byte writer or a poll where the command calls one. -/

namespace Sys2Proof.Machine

open Sys2Proof.Safety

/-! ## From acceptance to idle -/

/-- An accepted command whose rows are known runs as they say, beside the host's inputs used up. -/
theorem completes_of_rowsTo {i : Instr} {s t u : State} {n : Nat} (haccept : exec i s = .next t) (hto : RowsTo n t u)
    (hhost : t.host = s.host) (hn : noReset n s.host = true) :
    ∃ t, exec i s = .next t ∧ run n t = .next (u.withHost (hostAfter n s.host)) :=
  ⟨t, haccept, hhost ▸ hto.run_eq (hhost ▸ hn)⟩

/-! ## Byte writes -/

/-- What WB called with `sel` and `b` leaves, gone back to `rest` (R160). -/
def afterWrite (sel : Level) (b : Byte) (rest : List Label) (s : State) : State :=
  { s with
    sel := sel, byt := b, nib := shiftedForLow b, dOut := lowNibble b, e := false, rw := false, rs := sel, pc := rest
    bus := s.bus ++ byteFrame sel b, ops := s.ops ++ [byteOpEvent sel b] }

/-- A row that calls WB with `sel` and `b`, and the fifteen rows of WB. -/
theorem rowsTo_callWriter {s : State} {l : Label} {below rest : List Label} {sel : Level} {b : Byte}
    (hpc : s.pc = l :: below)
    (hrow : performRow l s = { s with sel := sel, byt := b, pc := .wb .w1 :: rest }) :
    RowsTo 16 s (afterWrite sel b rest s) := by
  have hcall := RowsTo.single hpc
  rw [hrow] at hcall
  exact hcall.trans (rowsTo_byteWriter rfl)

/-- WRI from its entry. -/
theorem rowsTo_wri {s : State} (hpc : s.pc = [.a1]) : RowsTo 16 s (afterWrite false s.arg [] s) :=
  rowsTo_callWriter hpc (by simp only [performRow, a1Row, State.callRet, hpc, List.tail_cons])

/-- WRC from its entry. -/
theorem rowsTo_wrc {s : State} (hpc : s.pc = [.b1]) : RowsTo 16 s (afterWrite true s.arg [] s) :=
  rowsTo_callWriter hpc (by simp only [performRow, b1Row, State.callRet, hpc, List.tail_cons])

/-- SETCUR from its entry, on a row that has a byte. -/
theorem rowsTo_setcur {s : State} {b : Byte} (hpc : s.pc = [.c1]) (hb : rowByte s.arg = some b) :
    RowsTo 16 s (afterWrite false b [] s) :=
  rowsTo_callWriter hpc (by simp only [performRow, c1Row, State.callRet, hpc, hb, List.tail_cons])

/-- SETCUR from its entry, on any other row. -/
theorem rowsTo_setcur_none {s : State} (hpc : s.pc = [.c1]) (hb : rowByte s.arg = none) :
    RowsTo 1 s { s with pc := [] } := by
  have hrow : performRow .c1 s = { s with pc := [] } := by
    simp only [performRow, c1Row, State.ret, hpc, hb, List.tail_cons]
  exact hrow ▸ RowsTo.single hpc

/-- Settles O27: acceptance, A1, and the byte writer. -/
theorem writeInstructionCompletes : Obligations.WriteInstructionCompletes := by
  unfold Obligations.WriteInstructionCompletes
  intro s b hpc hn
  exact completes_of_rowsTo (i := .wri b) (State.accept_idle hpc 1 b [.a1]) (rowsTo_wri rfl) rfl hn

/-- Settles O28: acceptance, B1, and the byte writer. -/
theorem writeCharacterCompletes : Obligations.WriteCharacterCompletes := by
  unfold Obligations.WriteCharacterCompletes
  intro s b hpc hn
  exact completes_of_rowsTo (i := .wrc b) (State.accept_idle hpc 2 b [.b1]) (rowsTo_wrc rfl) rfl hn

/-- Settles O29: an LCD instruction byte is accepted as the WRI of it (log entry 8). -/
theorem lcdBytesCompleteAsInstructionWrites : Obligations.LcdBytesCompleteAsInstructionWrites := by
  unfold Obligations.LcdBytesCompleteAsInstructionWrites
  intro s i b hi hpc hn
  rw [exec_lcdByte hi]
  exact writeInstructionCompletes s b hpc hn

/-- Settles O30: acceptance, C1 with the byte of its row, and the byte writer. -/
theorem setCursorSendsTheRowBase : Obligations.SetCursorSendsTheRowBase := by
  unfold Obligations.SetCursorSendsTheRowBase
  intro s row b hrow hpc hn
  have hb : rowByte row = some b := by obtain ⟨rfl, rfl⟩ | ⟨rfl, rfl⟩ := hrow <;> rfl
  exact completes_of_rowsTo (i := .setcur row) (State.accept_idle hpc 4 row [.c1]) (rowsTo_setcur rfl hb) rfl hn

/-- Settles O31: acceptance, and C1 which returns at once. -/
theorem setCursorOtherRowsDoNothing : Obligations.SetCursorOtherRowsDoNothing := by
  unfold Obligations.SetCursorOtherRowsDoNothing
  intro s row h1 h2 hpc hn
  have hb : rowByte row = none := by rw [rowByte, if_neg h1, if_neg h2]
  exact completes_of_rowsTo (i := .setcur row) (State.accept_idle hpc 4 row [.c1]) (rowsTo_setcur_none rfl hb) rfl hn

/-! ## PWR -/

/-- The level operand of PWR as a number. -/
theorem levelOperand_eq (a : Byte) : levelOperand a = decide (a.toNat % 2 = 1) := by
  rw [levelOperand, BitVec.getLsbD, Nat.testBit_zero]

/-- PWR from its entry. -/
theorem rowsTo_pwr {s : State} (hpc : s.pc = [.v1]) :
    RowsTo 1 s { s with
      pwr := levelOperand s.arg, pc := [], bus := s.bus ++ [.lvl .pwr (levelOperand s.arg)] } := by
  have hrow : performRow .v1 s = { s with
      pwr := levelOperand s.arg, pc := s.pc.tail, bus := s.bus ++ [.lvl .pwr (levelOperand s.arg)] } := rfl
  rw [hpc] at hrow
  exact hrow ▸ RowsTo.single hpc

/-- Settles O33: acceptance and V1. -/
theorem powerCommandSetsTheLine : Obligations.PowerCommandSetsTheLine := by
  unfold Obligations.PowerCommandSetsTheLine
  intro s a hpc hn
  rw [← levelOperand_eq]
  exact completes_of_rowsTo (i := .pwr a) (State.accept_idle hpc 6 a [.v1]) (rowsTo_pwr rfl) rfl hn

/-! ## POLL -/

/-- POLL from its entry, where its poll meets a sample of 0 below any limit. -/
theorem rowsTo_pollCommand {s : State} {k : Nat} (hpc : s.pc = [.q1]) (hanswers : Answers s (busyThenReady k))
    (hlimit : ∀ L, s.pollLimit = some L → k < L) : RowsTo (16 + 10 * k) s (afterPoll k [] s) := by
  have hrow : performRow .q1 s = { s with pc := [.pl .p1] } := by
    simp only [performRow, q1Row, State.callRet, hpc, List.tail_cons]
  have hcall : RowsTo 1 s { s with pc := [.pl .p1] } := hrow ▸ RowsTo.single hpc
  have hcount : 16 + 10 * k = 1 + (15 + 10 * k) := by omega
  rw [hcount]
  exact hcall.trans (rowsTo_poll rfl hanswers hlimit)

/-- POLL from acceptance to idle, with the LCD's answers as a list. -/
theorem poll_completes {s : State} {k : Nat} (a : Byte) (hpc : s.pc = []) (hanswers : Answers s (busyThenReady k))
    (hlimit : ∀ L, s.pollLimit = some L → k < L) (hn : noReset (16 + 10 * k) s.host = true) :
    ∃ t, exec (.poll a) s = .next t ∧
      run (16 + 10 * k) t = .next (State.withHost { afterPoll k [] s with op := 5, arg := a }
        (hostAfter (16 + 10 * k) s.host)) :=
  completes_of_rowsTo (i := .poll a) (State.accept_idle hpc 5 a [.q1]) (rowsTo_pollCommand rfl hanswers hlimit) rfl hn

/-- Settles O32: acceptance, Q1, and the poll. -/
theorem pollCommandCompletes : Obligations.PollCommandCompletes := by
  unfold Obligations.PollCommandCompletes
  intro s a k hpc hbusy hready hlimit hn
  exact poll_completes a hpc ((answers_busyThenReady s k).mpr ⟨hbusy, hready⟩) hlimit hn

/-- Settles O26: the samples up to the first 0 are below any limit. -/
theorem pollEndsWhenEventuallyReady : Obligations.PollEndsWhenEventuallyReady := by
  unfold Obligations.PollEndsWhenEventuallyReady
  intro s a hpc hready hnever
  obtain ⟨k, hanswers, hlimit⟩ := pollReady_busyThenReady s hready
  obtain ⟨t, haccept, hrun⟩ := poll_completes a hpc hanswers hlimit (noReset_of_never _ _ hnever)
  exact ⟨t, _, _, haccept, hrun, rfl, rfl, rfl, rfl, rfl, rfl, rfl, rfl⟩

/-! ## The lines during a byte write -/

/-- The labels of a byte write and of SN. -/
def writesOnly : Label → Bool
  | .sn _ => true
  | .wb _ => true
  | .a1 => true
  | .b1 => true
  | _ => false

/-- A row of a byte write leads to rows of a byte write only. -/
theorem performRow_writesOnly {s : State} {l : Label} (hpc : s.pc.all writesOnly = true) (hl : writesOnly l = true) :
    (performRow l s).pc.all writesOnly = true := by
  have htail : s.pc.tail.all writesOnly = true := by
    cases hp : s.pc with
    | nil => rfl
    | cons l rest => rw [hp, List.all_cons, Bool.and_eq_true] at hpc; exact hpc.2
  rw [performRow_eq_branchFreeRow]
  cases l with
  | sn k | wb k => cases k <;> exact htail
  | a1 | b1 => exact htail
  | _ => exact nomatch hl

/-- A byte write leaves D7's direction and the LCD's answers as they were, and RW low once it is low. -/
structure Writing (s v : State) : Prop where
  labels : v.pc.all writesOnly = true
  d7oe : v.d7oe = s.d7oe
  lcd : v.lcd = s.lcd
  d7Draws : v.d7Draws = s.d7Draws
  rwLow : s.rw = false → v.rw = false

/-- Each row of a byte write keeps that. -/
theorem Writing.row {s v : State} {l : Label} {rest : List Label} (h : Writing s v) (hpc : v.pc = l :: rest) :
    Writing s (performRow l v) := by
  have hl : writesOnly l = true := by
    have hall := h.labels
    rw [hpc, List.all_cons, Bool.and_eq_true] at hall
    exact hall.1
  have hpl : ∀ k, l ≠ .pl k := by rintro k rfl; exact nomatch hl
  have hlcd : performRow l v = { performRow l v with lcd := v.lcd, d7Draws := v.d7Draws } :=
    performRow_other_lcd l v v.lcd v.d7Draws (hpl .p6)
  refine ⟨performRow_writesOnly h.labels hl, ?_, ?_, ?_, fun hs => ?_⟩
  · simpa [performRow_d7oe, hpl] using h.d7oe
  · rw [hlcd]; exact h.lcd
  · rw [hlcd]; exact h.d7Draws
  · simp [performRow_rw, hpl, h.rwLow hs]

/-- A predicate that rows keep holds after any number of them. -/
theorem rows_keep {P : State → Prop} (h : ∀ s l rest, s.pc = l :: rest → P s → P (performRow l s)) (n : Nat) :
    ∀ s, P s → P (rows n s) := by
  induction n with
  | zero => intro s hs; exact hs
  | succ n ih =>
    intro s hs
    cases hp : s.pc with
    | nil => simpa only [rows, hp] using hs
    | cons l rest =>
      rw [rows_succ n s l rest hp]
      exact ih _ (h s l rest hp hs)

/-- A byte write after any number of its rows. -/
theorem writing_rows {s : State} (hpc : s.pc.all writesOnly = true) (n : Nat) : Writing s (rows n s) :=
  rows_keep (fun _ _ _ hp h => h.row hp) n s ⟨hpc, rfl, rfl, rfl, id⟩

/-- A command's call of WB, from its entry: D7's direction and the LCD untouched at every step, RW low from W2 on. -/
theorem run_callWriter {s : State} {l : Label} {m : Nat} (hl : l = .a1 ∨ l = .b1) (hpc : s.pc = [l])
    (hn : noReset 16 s.host = true) (hm : m ≤ 16) :
    ∃ v, run m s = .next v ∧ v.d7oe = s.d7oe ∧ v.lcd = s.lcd ∧ v.d7Draws = s.d7Draws ∧ (3 ≤ m → v.rw = false) := by
  have hbusy : busyFor 16 s := by
    obtain rfl | rfl := hl
    · exact (rowsTo_wri hpc).1
    · exact (rowsTo_wrc hpc).1
  have hall : s.pc.all writesOnly = true := by obtain rfl | rfl := hl <;> rw [hpc] <;> rfl
  have hw := writing_rows hall m
  refine ⟨_, run_busy_le 16 m s hbusy hn hm, hw.d7oe, hw.lcd, hw.d7Draws, fun hle => ?_⟩
  obtain ⟨d, rfl⟩ := Nat.exists_eq_add_of_le hle
  show (rows (3 + d) s).rw = false
  have hlow : (rows 3 s).rw = false := by obtain rfl | rfl := hl <;> simp only [rows, hpc] <;> rfl
  rw [rows_add]
  exact (writing_rows (writing_rows hall 3).labels d).rwLow hlow

/-- The nibbles of a byte as numbers of four bits. -/
theorem nibbles_eq (b : Byte) :
    highNibble b = BitVec.ofNat 4 (b.toNat / 16) ∧ lowNibble b = BitVec.ofNat 4 (b.toNat % 16) := by
  have hb : b.toNat < 256 := b.isLt
  constructor
  · apply BitVec.eq_of_toNat_eq
    rw [highNibble_toNat, BitVec.toNat_ofNat]
    omega
  · apply BitVec.eq_of_toNat_eq
    rw [lowNibble_toNat, BitVec.toNat_ofNat]
    omega

/-- Settles O20: the frame of the byte writer is two write strobes, and its rows are those of a byte write. -/
theorem byteFrameIsTwoWriteStrobes : Obligations.ByteFrameIsTwoWriteStrobes := by
  unfold Obligations.ByteFrameIsTwoWriteStrobes
  intro s b i sel hi hpc hn
  obtain ⟨hhigh, hlow⟩ := nibbles_eq b
  have hstrobes := strobesFrom_byteFrame s.lineView sel b
  rw [hhigh, hlow] at hstrobes
  obtain ⟨rfl, rfl⟩ | ⟨rfl, rfl⟩ := hi
  · exact ⟨_, _, _, State.accept_idle hpc 1 b [.a1], (rowsTo_wri rfl).run_eq hn, rfl, rfl, hstrobes,
      fun m hm => run_callWriter (.inl rfl) rfl hn hm⟩
  · exact ⟨_, _, _, State.accept_idle hpc 2 b [.b1], (rowsTo_wrc rfl).run_eq hn, rfl, rfl, hstrobes,
      fun m hm => run_callWriter (.inr rfl) rfl hn hm⟩

end Sys2Proof.Machine
end

section
/-! PROOFS. WRS (R163): one character as its fetch, its poll and its write; the string up to its first zero byte; and
the string that has none. -/

namespace Sys2Proof.Machine

open Sys2Proof.Safety

/-! ## A poll and the byte write after it -/

/-- The LCD's answers to a poll and to what comes after it. -/
theorem answers_poll_append (s : State) (k : Nat) (bs : List Level) :
    Answers s (busyThenReady k ++ bs) ↔ Answers s (busyThenReady k) ∧ Answers (afterDraws (k + 1) s) bs := by
  rw [answers_append]
  simp [busyThenReady]

/-- A poll, called with `l` to go on with, and the write that `l` then calls WB for. -/
theorem rowsTo_pollThenWrite {s : State} {l : Label} {rest : List Label} {k : Nat} {sel : Level} {b : Byte}
    (hpc : s.pc = [.pl .p1, l]) (hanswers : Answers s (busyThenReady k)) (hlimit : ∀ L, s.pollLimit = some L → k < L)
    (hrow : performRow l (afterPoll k [l] s) = { afterPoll k [l] s with sel := sel, byt := b, pc := .wb .w1 :: rest }) :
    RowsTo (31 + 10 * k) s (afterWrite sel b rest (afterPoll k [l] s)) := by
  have hcount : 31 + 10 * k = 15 + 10 * k + 16 := by omega
  rw [hcount]
  exact (rowsTo_poll hpc hanswers hlimit).trans (rowsTo_callWriter rfl hrow)

/-! ## One character -/

/-- S1 to S3 fetch a byte that is not 0 and call the poll. -/
theorem rowsTo_fetch {s : State} {c : Byte} (hpc : s.pc = [.wrs .s1]) (hc : s.str.read s.sidx = c) (hne : c ≠ 0) :
    RowsTo 3 s { s with ch := c, pc := [.pl .p1, .wrs .s4] } := by
  have hs1 : performRow (.wrs .s1) s = { s with ch := c, pc := [.wrs .s2] } := by
    simp only [performRow, wrsRow, State.goTo, hpc, hc, List.tail_cons]
  have hs2 : performRow (.wrs .s2) { s with ch := c, pc := [.wrs .s2] } = { s with ch := c, pc := [.wrs .s3] } :=
    if_neg hne
  exact ((hs1 ▸ RowsTo.single hpc).trans (hs2 ▸ RowsTo.single rfl)).trans (RowsTo.single rfl)

/-- S1 and S2 end the command at a byte that is 0. -/
theorem rowsTo_terminator {s : State} (hpc : s.pc = [.wrs .s1]) (hc : s.str.read s.sidx = 0) :
    RowsTo 2 s { s with ch := 0, pc := [] } := by
  have hs1 : performRow (.wrs .s1) s = { s with ch := 0, pc := [.wrs .s2] } := by
    simp only [performRow, wrsRow, State.goTo, hpc, hc, List.tail_cons]
  have hs2 : performRow (.wrs .s2) { s with ch := 0, pc := [.wrs .s2] } = { s with ch := 0, pc := [] } := by
    simp [performRow, wrsRow, State.ret]
  exact (hs1 ▸ RowsTo.single hpc).trans (hs2 ▸ RowsTo.single rfl)

/-- What a character written after a poll with `k` busy reads leaves, at S1 again (R163). -/
def afterCharacter (c : Byte) (k : Nat) (s : State) : State :=
  { afterDraws (k + 1) (afterLastCharacter s (some (c, k))) with
    ch := c, sidx := s.sidx + 1, pc := [.wrs .s1], bus := s.bus ++ (pollEvents k ++ byteFrame true c)
    ops := s.ops ++ [.busyPoll (k + 1), .charWrite c] }

/-- One character: fetched, polled for and written. -/
theorem rowsTo_character {s : State} {c : Byte} {k : Nat} (hpc : s.pc = [.wrs .s1]) (hc : s.str.read s.sidx = c)
    (hne : c ≠ 0) (hanswers : Answers s (busyThenReady k)) (hlimit : ∀ L, s.pollLimit = some L → k < L) :
    RowsTo (35 + 10 * k) s (afterCharacter c k s) := by
  have hwritten := (rowsTo_fetch hpc hc hne).trans
    (rowsTo_pollThenWrite (sel := true) (b := c) (rest := [.wrs .s5]) rfl hanswers hlimit rfl)
  have hall := hwritten.trans (RowsTo.single rfl)
  have hcount : 35 + 10 * k = 3 + (31 + 10 * k) + 1 := by omega
  rw [hcount]
  simpa [performRow, wrsRow, State.goTo, afterWrite, afterPoll, afterCharacter, afterLastCharacter, afterDraws,
    byteOpEvent] using hall

/-! ## A string up to its first zero byte -/

/-- What WRS leaves after the characters `cs`, each with the busy reads of its poll, and the terminator. -/
def afterString (cs : List (Byte × Nat)) (s : State) : State :=
  { afterDraws (cs.map (fun c => c.2 + 1)).sum (afterLastCharacter s cs.getLast?) with
    ch := 0, sidx := s.sidx + cs.length, pc := []
    bus := s.bus ++ cs.flatMap (fun c => pollEvents c.2 ++ byteFrame true c.1)
    ops := s.ops ++ cs.flatMap (fun c => [.busyPoll (c.2 + 1), .charWrite c.1]) }

/-- The first character and then the others. -/
theorem afterString_cons (c : Byte × Nat) (cs : List (Byte × Nat)) (s : State) :
    afterString cs (afterCharacter c.1 c.2 s) = afterString (c :: cs) s := by
  have hsidx : ∀ n, s.sidx + 1 + n = s.sidx + (n + 1) := Nat.succ_add_eq_add_succ s.sidx
  cases cs using List.reverseRecOn with
  | nil => simp [afterString, afterCharacter, afterLastCharacter, afterDraws]
  | append_singleton init d =>
    have hlast : (c :: (init ++ [d])).getLast? = some d := by rw [← List.cons_append, List.getLast?_concat]
    simp [afterString, afterCharacter, afterLastCharacter, afterDraws, hlast, freeDraws_add, hsidx]

/-- WRS from S1 over the characters before the first zero byte, and the terminator. -/
theorem rowsTo_string (cs : List (Byte × Nat)) : ∀ {s : State}, s.pc = [.wrs .s1] →
    (∀ i (h : i < cs.length), s.str.read (s.sidx + i) = cs[i].1) → (∀ c ∈ cs, c.1 ≠ 0) →
    s.str.read (s.sidx + cs.length) = 0 → Answers s (cs.flatMap (fun c => busyThenReady c.2)) →
    (∀ L, s.pollLimit = some L → ∀ c ∈ cs, c.2 < L) →
    RowsTo (2 + (cs.map (fun c => 35 + 10 * c.2)).sum) s (afterString cs s) := by
  induction cs with
  | nil =>
    intro s hpc _ _ hend _ _
    simpa [afterString, afterLastCharacter] using rowsTo_terminator hpc hend
  | cons c cs ih =>
    intro s hpc hread hne hend hanswers hlimit
    obtain ⟨hpoll, hanswers⟩ := (answers_poll_append s c.2 _).mp hanswers
    have hfirst := rowsTo_character hpc (hread 0 (Nat.succ_pos _)) (hne c List.mem_cons_self) hpoll
      fun L hL => hlimit L hL c List.mem_cons_self
    have hrest := ih (s := afterCharacter c.1 c.2 s) rfl
      (fun i h => by
        show s.str.read (s.sidx + 1 + i) = _
        rw [Nat.succ_add_eq_add_succ]
        exact hread (i + 1) (Nat.succ_lt_succ h))
      (fun d hd => hne d (List.mem_cons_of_mem _ hd))
      (by
        show s.str.read (s.sidx + 1 + cs.length) = 0
        rw [Nat.succ_add_eq_add_succ]
        exact hend)
      hanswers (fun L hL d hd => hlimit L hL d (List.mem_cons_of_mem _ hd))
    rw [afterString_cons] at hrest
    have hcount : 2 + ((c :: cs).map (fun c => 35 + 10 * c.2)).sum =
        35 + 10 * c.2 + (2 + (cs.map (fun c => 35 + 10 * c.2)).sum) := by
      simp only [List.map_cons, List.sum_cons]
      omega
    rw [hcount]
    exact hfirst.trans hrest

/-- Settles O35: acceptance, the characters, and the terminator. -/
theorem writeStringWritesUpToTheFirstZero : Obligations.WriteStringWritesUpToTheFirstZero := by
  unfold Obligations.WriteStringWritesUpToTheFirstZero
  intro s a str cs hpc hread hne hend hanswers hlimit hn
  have hto := rowsTo_string cs
    (s := { s with op := 3, arg := a, sidx := 0, str := Str.ofArg str, pc := [.wrs .s1] }) rfl
    (fun i h => by rw [Nat.zero_add]; exact hread i h) hne (by rw [Nat.zero_add]; exact hend) hanswers hlimit
  obtain ⟨t, haccept, hrun⟩ := completes_of_rowsTo (exec_wrs_idle hpc a str) hto rfl hn
  refine ⟨t, haccept, hrun.trans ?_⟩
  cases hlast : cs.getLast? <;> simp [afterString, afterLastCharacter, afterDraws, State.withHost, hlast]

/-! ## A string with no zero byte -/

/-- From S1, characters that are not 0, each with the busy reads of its poll, lead to S1 again. -/
theorem rowsTo_characters (ks : List Nat) : ∀ {s : State}, s.pc = [.wrs .s1] →
    (∀ i, i < ks.length → s.str.read (s.sidx + i) ≠ 0) → Answers s (ks.flatMap busyThenReady) →
    (∀ L, s.pollLimit = some L → ∀ k ∈ ks, k < L) →
    ∃ u, RowsTo (ks.map (fun k => 35 + 10 * k)).sum s u ∧ u.pc = [.wrs .s1] ∧ u.sidx = s.sidx + ks.length := by
  induction ks with
  | nil => intro s hpc _ _ _; exact ⟨s, ⟨trivial, rfl⟩, hpc, rfl⟩
  | cons k ks ih =>
    intro s hpc hne hanswers hlimit
    obtain ⟨hpoll, hanswers⟩ := (answers_poll_append s k _).mp hanswers
    have hfirst := rowsTo_character hpc rfl (hne 0 (Nat.succ_pos _)) hpoll fun L hL => hlimit L hL k List.mem_cons_self
    obtain ⟨u, hrest, hpc', hsidx⟩ := ih (s := afterCharacter (s.str.read s.sidx) k s) rfl
      (fun i h => by
        show s.str.read (s.sidx + 1 + i) ≠ 0
        rw [Nat.succ_add_eq_add_succ]
        exact hne (i + 1) (Nat.succ_lt_succ h))
      hanswers (fun L hL d hd => hlimit L hL d (List.mem_cons_of_mem _ hd))
    exact ⟨u, hfirst.trans hrest, hpc', hsidx.trans (Nat.succ_add_eq_add_succ _ _)⟩

/-- A block that rows lead from busy to busy has recorded no fault on the way. -/
theorem RowsTo.run_le {n m : Nat} {s t : State} (h : RowsTo n s t) (ht : t.pc ≠ []) (hn : noReset n s.host = true)
    (hm : m ≤ n) : ∃ u, run m s = .next u ∧ u.pc ≠ [] ∧ u.fault = s.fault := by
  obtain ⟨hb, rfl⟩ := h
  have hpc : (rows m s).pc ≠ [] := by
    obtain hlt | rfl := Nat.lt_or_eq_of_le hm
    · exact busyFor_pc n m s hb hlt
    · exact ht
  obtain ⟨d, rfl⟩ := Nat.exists_eq_add_of_le hm
  exact ⟨_, run_busy_le _ m s hb hn hm, hpc, rows_fault m s (busyFor_split m d s hb).1 hpc⟩

/-- Settles O36: the characters lead to S1 again, and the block is busy on the way. -/
theorem unterminatedStringNeverEnds : Obligations.UnterminatedStringNeverEnds := by
  unfold Obligations.UnterminatedStringNeverEnds
  intro s ks hpc hne hanswers hlimit hn
  obtain ⟨u, hto, hpc', hsidx⟩ := rowsTo_characters ks hpc hne hanswers hlimit
  exact ⟨⟨_, hto.run_eq hn, hpc', hsidx⟩, fun n hle => hto.run_le (by rw [hpc']; simp) hn hle⟩

end Sys2Proof.Machine
end

section
/-! PROOFS. INIT (R190): its head, the five polls each with the instruction write after it, the whole; and the strobes,
the event counts and the least times of what the commands append (R74, R196, R271). -/

namespace Sys2Proof.Machine

open Sys2Proof.Safety

/-! ## The head of INIT (I0 to I9) -/

/-- I0 to I2 put RS and RW low and wait for the power. -/
theorem rowsTo_initLevels {s : State} (hpc : s.pc = [.init .i0]) :
    RowsTo 3 s { s with
      rs := false, rw := false, pc := [.init .i3]
      bus := s.bus ++ [.lvl .rs false, .lvl .rw false, .wait Config.tPwrOn]
      ops := s.ops ++ [.delay Config.tPwrOn] } := by
  have hall := ((RowsTo.single hpc).trans (RowsTo.single rfl)).trans (RowsTo.single rfl)
  simpa [performRow, initRow, State.emitOp, State.setLevel, State.writeLine, State.wait, State.emit, State.goTo, hpc]
    using hall

/-- A row that sends a nibble by SN, and SN. -/
theorem rowsTo_initSend {s : State} {l m : InitLabel} {v : Byte} (hrow : ∀ u, performRow (.init l) u = initSend v m u)
    (hpc : s.pc = [.init l]) :
    RowsTo 6 s { s with
      nib := v, dOut := highNibble v, e := false, pc := [.init m], bus := s.bus ++ writeStrobe (highNibble v) } := by
  have hcall : performRow (.init l) s = { s with nib := v, pc := [.sn .n1, .init m] } := by
    simp only [hrow, initSend, State.callThen, hpc, List.tail_cons]
  exact (hcall ▸ RowsTo.single hpc).trans (rowsTo_sendNibble rfl)

/-- A nibble of the function reset: sent, recorded and waited for. -/
theorem rowsTo_initReset {s : State} {l m n : InitLabel} {v : Byte} {t : Micros}
    (hsend : ∀ u, performRow (.init l) u = initSend v m u) (hsent : ∀ u, performRow (.init m) u = initSent t n u)
    (hpc : s.pc = [.init l]) :
    RowsTo 7 s { s with
      nib := v, dOut := highNibble v, e := false, pc := [.init n]
      bus := s.bus ++ (writeStrobe (highNibble v) ++ [.wait t])
      ops := s.ops ++ [.nibbleSend (highNibble v), .delay t] } := by
  have hall := (rowsTo_initSend hsend hpc).trans (RowsTo.single rfl)
  rw [hsent, initSent_eq] at hall
  simpa using hall

/-- What the head of INIT leaves, its first poll called (R190, R192, R193). -/
def afterInitHead (s : State) : State :=
  { s with
    rs := false, rw := false, e := false, nib := Config.opFset4, dOut := 0x2, pc := [.pl .p1, .init .i11]
    bus := s.bus ++ initHead
    ops := s.ops ++ [.delay 40000, .nibbleSend 0x3, .delay 10, .nibbleSend 0x3, .delay 200, .nibbleSend 0x3, .delay 80,
      .nibbleSend 0x2] }

/-- I0 to I10: the levels, the three nibbles of the function reset, and the nibble of the 4-bit mode. -/
theorem rowsTo_initHead {s : State} (hpc : s.pc = [.init .i0]) : RowsTo 31 s (afterInitHead s) := by
  have hreset1 := (rowsTo_initLevels hpc).trans (rowsTo_initReset (fun _ => rfl) (fun _ => rfl) rfl)
  have hreset2 := hreset1.trans (rowsTo_initReset (fun _ => rfl) (fun _ => rfl) rfl)
  have hreset3 := hreset2.trans (rowsTo_initReset (fun _ => rfl) (fun _ => rfl) rfl)
  have hmode := hreset3.trans (rowsTo_initSend (l := .i9) (fun _ => rfl) rfl)
  have hall := hmode.trans (RowsTo.single rfl)
  have h3 : highNibble Config.opFrst = 0x3 := rfl
  have h2 : highNibble Config.opFset4 = 0x2 := rfl
  simpa [performRow, initRow, State.emitOp, State.callThen, afterInitHead, initHead, h3, h2, Config.tPwrOn,
    Config.tRst1, Config.tRst2, Config.tRst3] using hall

/-! ## The guarded writes of INIT (I10 to I19) -/

/-- What a poll with `k` busy reads and the instruction write of `b` after it do to the registers and the traces; the
answers used are left aside (R194, R195). -/
def guardedRegisters (k : Nat) (b : Byte) (rest : List Label) (s : State) : State :=
  { s with
    sel := false, byt := b, nib := shiftedForLow b, dOut := lowNibble b, d7oe := true, e := false, rw := false
    rs := false, bf := false, pollcnt := k + 1, pc := rest, bus := s.bus ++ guardedWrite k b
    ops := s.ops ++ [.busyPoll (k + 1), .instrWrite b] }

/-- The same with the answers used. -/
def afterGuardedWrite (k : Nat) (b : Byte) (rest : List Label) (s : State) : State :=
  afterDraws (k + 1) (guardedRegisters k b rest s)

/-- The registers and the LCD's answers are apart. -/
theorem guardedRegisters_afterDraws (k n : Nat) (b : Byte) (rest : List Label) (s : State) :
    guardedRegisters k b rest (afterDraws n s) = afterDraws n (guardedRegisters k b rest s) := rfl

/-- A poll, called with the row `l` of INIT to go on with, and the write that `l` calls WB for. -/
theorem rowsTo_guardedWrite {s : State} {l : InitLabel} {rest : List Label} {k : Nat} {b : Byte}
    (hrow : performRow (.init l) (afterPoll k [.init l] s) =
      { afterPoll k [.init l] s with sel := false, byt := b, pc := .wb .w1 :: rest })
    (hpc : s.pc = [.pl .p1, .init l]) (hanswers : Answers s (busyThenReady k))
    (hlimit : ∀ L, s.pollLimit = some L → k < L) : RowsTo (31 + 10 * k) s (afterGuardedWrite k b rest s) := by
  have hall := rowsTo_pollThenWrite hpc hanswers hlimit hrow
  simpa [afterWrite, afterPoll, afterGuardedWrite, guardedRegisters, afterDraws, guardedWrite, byteOpEvent] using hall

/-- The same, and the row `m` of INIT that calls the next poll. -/
theorem rowsTo_guardedWrite_poll {s : State} {l m n : InitLabel} {k : Nat} {b : Byte}
    (hwrite : ∀ u, performRow (.init l) u = initWrite b m u)
    (hcall : ∀ u, performRow (.init m) u = u.callThen (.pl .p1) (.init n))
    (hpc : s.pc = [.pl .p1, .init l]) (hanswers : Answers s (busyThenReady k))
    (hlimit : ∀ L, s.pollLimit = some L → k < L) :
    RowsTo (32 + 10 * k) s (afterGuardedWrite k b [.pl .p1, .init n] s) := by
  have hall := (rowsTo_guardedWrite (rest := [.init m]) (hwrite _) hpc hanswers hlimit).trans (RowsTo.single rfl)
  rw [hcall] at hall
  have hcount : 32 + 10 * k = 31 + 10 * k + 1 := by omega
  rw [hcount]
  exact hall

/-! ## The whole of INIT -/

/-- INIT from its entry, whatever its five polls meet below any limit. -/
theorem rowsTo_init {s : State} {k1 k2 k3 k4 k5 : Nat} (hpc : s.pc = [.init .i0])
    (hanswers : Answers s ([k1, k2, k3, k4, k5].flatMap busyThenReady))
    (hlimit : ∀ L, s.pollLimit = some L → k1 < L ∧ k2 < L ∧ k3 < L ∧ k4 < L ∧ k5 < L) :
    RowsTo (190 + 10 * (k1 + k2 + k3 + k4 + k5)) s (afterDraws (k1 + k2 + k3 + k4 + k5 + 5) { s with
      sel := false, byt := 0x0C, nib := 0xC0, dOut := 0xC, d7oe := true, e := false, rw := false, rs := false
      bf := false, pc := [], pollcnt := k5 + 1, bus := s.bus ++ initEvents k1 k2 k3 k4 k5
      ops := s.ops ++ initOpEvents k1 k2 k3 k4 k5 }) := by
  simp only [imp_and, forall_and] at hlimit
  obtain ⟨hlimit1, hlimit2, hlimit3, hlimit4, hlimit5⟩ := hlimit
  obtain ⟨h1, hanswers⟩ := (answers_poll_append s k1 _).mp hanswers
  obtain ⟨h2, hanswers⟩ := (answers_poll_append _ k2 _).mp hanswers
  obtain ⟨h3, hanswers⟩ := (answers_poll_append _ k3 _).mp hanswers
  obtain ⟨h4, hanswers⟩ := (answers_poll_append _ k4 _).mp hanswers
  obtain ⟨h5, -⟩ := (answers_poll_append _ k5 []).mp hanswers
  have hto1 := (rowsTo_initHead hpc).trans (rowsTo_guardedWrite_poll (fun _ => rfl) (fun _ => rfl) rfl h1 hlimit1)
  have hto2 := hto1.trans (rowsTo_guardedWrite_poll (fun _ => rfl) (fun _ => rfl) rfl h2 hlimit2)
  have hto3 := hto2.trans (rowsTo_guardedWrite_poll (fun _ => rfl) (fun _ => rfl) rfl h3 hlimit3)
  have hto4 := hto3.trans (rowsTo_guardedWrite_poll (fun _ => rfl) (fun _ => rfl) rfl h4 hlimit4)
  have hto5 := hto4.trans (rowsTo_guardedWrite (rest := []) rfl rfl h5 hlimit5)
  have hrows : 190 + 10 * (k1 + k2 + k3 + k4 + k5) =
      31 + (32 + 10 * k1) + (32 + 10 * k2) + (32 + 10 * k3) + (32 + 10 * k4) + (31 + 10 * k5) := by omega
  have hdraws : k1 + k2 + k3 + k4 + k5 + 5 = k1 + 1 + (k2 + 1) + (k3 + 1) + (k4 + 1) + (k5 + 1) := by omega
  rw [hrows, hdraws]
  simp only [afterGuardedWrite, guardedRegisters_afterDraws, afterDraws_add] at hto5
  convert hto5 using 2
  simp [guardedRegisters, afterInitHead, initEvents, initOpEvents, Config.opFset4, Config.opDoff, Config.opClr,
    Config.opEmode, Config.opDon, shiftedForLow, lowNibble]

/-- Settles O37: acceptance, the head, and the five guarded writes. -/
theorem initRunsItsSequence : Obligations.InitRunsItsSequence := by
  unfold Obligations.InitRunsItsSequence
  intro s a k1 k2 k3 k4 k5 hpc hanswers hlimit hn
  have hto := rowsTo_init (s := { s with op := 0, arg := a, pc := [.init .i0] }) rfl hanswers hlimit
  exact completes_of_rowsTo (i := .init a) (State.accept_idle hpc 0 a [.init .i0]) hto rfl hn

/-! ## The strobes of INIT (R74) -/

/-- Whatever the lines were before the events, these write `ws` in the strobe view, and read the instruction register
only. -/
def WritesOf (xs : List BusEvent) (ws : List Strobe) : Prop :=
  ∀ v, (strobesFrom v xs).filter isWrite = ws ∧ ∀ r b, .rd r b ∈ strobesFrom v xs → r = false

/-- Events in two parts. -/
theorem WritesOf.append {xs ys : List BusEvent} {ws ws' : List Strobe} (h : WritesOf xs ws) (h' : WritesOf ys ws') :
    WritesOf (xs ++ ys) (ws ++ ws') := by
  intro v
  obtain ⟨hwrites, hreads⟩ := h v
  obtain ⟨hwrites', hreads'⟩ := h' (xs.foldl LineView.after v)
  rw [strobesFrom_append]
  refine ⟨by rw [List.filter_append, hwrites, hwrites'], fun r b hmem => ?_⟩
  exact (List.mem_append.mp hmem).elim (hreads r b) (hreads' r b)

/-- A byte written to the instruction register. -/
theorem writesOf_byteFrame (b : Byte) :
    WritesOf (byteFrame false b) [.wr false (highNibble b), .wr false (lowNibble b)] := by
  intro v
  rw [strobesFrom_byteFrame]
  exact ⟨rfl, by simp⟩

/-- The head of INIT: 0x3 three times and 0x2. -/
theorem writesOf_initHead :
    WritesOf initHead [.wr false 0x3, .wr false 0x3, .wr false 0x3, .wr false 0x2] := by
  intro v
  have hstrobes : strobesFrom v initHead = [.wr false 0x3, .wr false 0x3, .wr false 0x3, .wr false 0x2] := by
    simp [initHead, writeStrobe, strobesFrom, LineView.strobeAt, LineView.after]
  rw [hstrobes]
  exact ⟨rfl, by simp⟩

/-- Busy reads with RW at read and RS low strobe no write, and leave RW and RS as they are. -/
theorem strobesFrom_busyReads (k : Nat) : ∀ v : LineView, v.rw = true → v.rs = false →
    (∀ x ∈ strobesFrom v (busyReads k), ∃ b, x = .rd false b) ∧
      ((busyReads k).foldl LineView.after v).rw = true ∧ ((busyReads k).foldl LineView.after v).rs = false := by
  induction k with
  | zero => intro v hrw hrs; exact ⟨by simp [busyReads, strobesFrom], hrw, hrs⟩
  | succ k ih =>
    intro v hrw hrs
    obtain ⟨hreads, hlines⟩ := ih ((readFrame true).foldl LineView.after v) hrw hrs
    refine ⟨fun x hx => ?_, by rw [busyReads, List.foldl_append]; exact hlines⟩
    rw [busyReads, strobesFrom_append, strobesFrom_readFrame true hrw, hrs] at hx
    obtain hx | hx := List.mem_append.mp hx
    · simp only [List.mem_cons, List.not_mem_nil, or_false] at hx
      obtain rfl | rfl := hx <;> exact ⟨_, rfl⟩
    · exact hreads x hx

/-- A poll strobes reads of the instruction register only. -/
theorem strobesFrom_pollEvents (v : LineView) (k : Nat) : ∀ x ∈ strobesFrom v (pollEvents k), ∃ b, x = .rd false b := by
  obtain ⟨hreads, hrw, hrs⟩ := strobesFrom_busyReads k (pollHead.foldl LineView.after v) rfl rfl
  have hhead : strobesFrom v pollHead = [] := rfl
  have htail : ∀ v, strobesFrom v pollTail = [] := fun v => rfl
  intro x hx
  rw [pollEvents, List.append_assoc, List.append_assoc, strobesFrom_append, hhead, List.nil_append, strobesFrom_append,
    strobesFrom_append, strobesFrom_readFrame false hrw, hrs, htail, List.append_nil] at hx
  obtain hx | hx := List.mem_append.mp hx
  · exact hreads x hx
  · simp only [List.mem_cons, List.not_mem_nil, or_false] at hx
    obtain rfl | rfl := hx <;> exact ⟨_, rfl⟩

/-- A poll writes nothing. -/
theorem writesOf_pollEvents (k : Nat) : WritesOf (pollEvents k) [] := by
  intro v
  have hreads := strobesFrom_pollEvents v k
  refine ⟨List.filter_eq_nil_iff.mpr fun x hx => ?_, fun r b hx => ?_⟩
  · obtain ⟨b, rfl⟩ := hreads x hx
    simp [isWrite]
  · obtain ⟨b', heq⟩ := hreads _ hx
    exact (Strobe.rd.inj heq).1

/-- A guarded write writes the two nibbles of its byte. -/
theorem writesOf_guardedWrite (k : Nat) (b : Byte) :
    WritesOf (guardedWrite k b) [.wr false (highNibble b), .wr false (lowNibble b)] :=
  (writesOf_pollEvents k).append (writesOf_byteFrame b)

/-- INIT writes the nibbles of its head and those of its five bytes. -/
theorem writesOf_initEvents (k1 k2 k3 k4 k5 : Nat) :
    WritesOf (initEvents k1 k2 k3 k4 k5)
      [.wr false 0x3, .wr false 0x3, .wr false 0x3, .wr false 0x2, .wr false 0x2, .wr false 0x8, .wr false 0x0,
       .wr false 0x8, .wr false 0x0, .wr false 0x1, .wr false 0x0, .wr false 0x6, .wr false 0x0, .wr false 0xC] :=
  ((((writesOf_initHead.append (writesOf_guardedWrite k1 0x28)).append (writesOf_guardedWrite k2 0x08)).append
    (writesOf_guardedWrite k3 0x01)).append (writesOf_guardedWrite k4 0x06)).append (writesOf_guardedWrite k5 0x0C)

/-- Settles O38: the strobes of the events that INIT appends. -/
theorem initMakesFourteenWriteStrobes : Obligations.InitMakesFourteenWriteStrobes := by
  unfold Obligations.InitMakesFourteenWriteStrobes
  intro s a k1 k2 k3 k4 k5 hpc hanswers hlimit hn
  obtain ⟨t, haccept, hrun⟩ := initRunsItsSequence s a k1 k2 k3 k4 k5 hpc hanswers hlimit hn
  obtain ⟨hwrites, hreads⟩ := writesOf_initEvents k1 k2 k3 k4 k5 s.lineView
  exact ⟨t, _, _, haccept, hrun, rfl, rfl, hwrites, hreads⟩

/-! ## Event counts and least times (R205, R271) -/

/-- A byte write frame is 12 events of 4 us at least. -/
theorem byteFrame_size (sel : Level) (b : Byte) : (byteFrame sel b).length = 12 ∧ elapsed (byteFrame sel b) = 4 :=
  ⟨rfl, rfl⟩

/-- Each busy read is 9 events of 4 us at least. -/
theorem busyReads_size (k : Nat) : (busyReads k).length = 9 * k ∧ elapsed (busyReads k) = 4 * k := by
  induction k with
  | zero => exact ⟨rfl, rfl⟩
  | succ k ih =>
    have hframe : (readFrame true).length = 9 ∧ elapsed (readFrame true) = 4 := ⟨rfl, rfl⟩
    simp only [busyReads, List.length_append, elapsed_append, hframe, ih]
    constructor <;> ring

/-- A poll with `k` busy reads makes `k + 1` reads, and 5 events besides. -/
theorem pollEvents_size (k : Nat) :
    (pollEvents k).length = 5 + 9 * (k + 1) ∧ elapsed (pollEvents k) = 4 * (k + 1) := by
  have hhead : pollHead.length = 3 ∧ elapsed pollHead = 0 := ⟨rfl, rfl⟩
  have hframe : (readFrame false).length = 9 ∧ elapsed (readFrame false) = 4 := ⟨rfl, rfl⟩
  have htail : pollTail.length = 2 ∧ elapsed pollTail = 0 := ⟨rfl, rfl⟩
  simp only [pollEvents, List.length_append, elapsed_append, hhead, hframe, htail, busyReads_size]
  constructor <;> ring

/-- The head of INIT is 26 events; a good run of INIT is that and five guarded writes. -/
theorem initEvents_size (k1 k2 k3 k4 k5 : Nat) :
    (initEvents k1 k2 k3 k4 k5).length = 111 + 9 * (k1 + k2 + k3 + k4 + k5 + 5) ∧
      elapsed (initEvents k1 k2 k3 k4 k5) = 40318 + 4 * (k1 + k2 + k3 + k4 + k5 + 5) := by
  have hhead : initHead.length = 26 ∧ elapsed initHead = 40298 := by decide
  simp only [initEvents, guardedWrite, List.length_append, elapsed_append, hhead, pollEvents_size, byteFrame_size]
  constructor <;> ring

/-- Settles O39: the sizes of the events that the commands append from acceptance to idle. -/
theorem frameSizesAndLeastTimes : Obligations.FrameSizesAndLeastTimes := by
  unfold Obligations.FrameSizesAndLeastTimes
  refine ⟨fun s b i hi hpc hn => ?_, fun s a k hpc hanswers hlimit hn => ?_,
    fun s a k1 k2 k3 k4 k5 hpc hanswers hlimit hn => ?_⟩
  · obtain rfl | rfl := hi
    · obtain ⟨t, haccept, hrun⟩ := writeInstructionCompletes s b hpc hn
      exact ⟨t, _, _, haccept, hrun, rfl, rfl, byteFrame_size _ _⟩
    · obtain ⟨t, haccept, hrun⟩ := writeCharacterCompletes s b hpc hn
      exact ⟨t, _, _, haccept, hrun, rfl, rfl, byteFrame_size _ _⟩
  · obtain ⟨t, haccept, hrun⟩ := poll_completes a hpc hanswers hlimit hn
    exact ⟨t, _, _, haccept, hrun, rfl, rfl, pollEvents_size k⟩
  · obtain ⟨t, haccept, hrun⟩ := initRunsItsSequence s a k1 k2 k3 k4 k5 hpc hanswers hlimit hn
    exact ⟨t, _, _, haccept, hrun, rfl, rfl, initEvents_size k1 k2 k3 k4 k5⟩

end Sys2Proof.Machine
end

section
/-! PROOFS. Runs of commands (R76) under the premises of R71, R77 and R222: every command accepted by an idle block ends
with no fault, and so does a list of commands kept on the port. -/

namespace Sys2Proof.Machine

open Sys2Proof.Safety

/-! ## The premise of R71, along rows -/

/-- In every poll that the rows from `s` on start, some sample is 0. -/
def PollsReady (s : State) : Prop :=
  ∀ (n : Nat) (t : State) (rest : List Label), RowsTo n s t → t.pc = .pl .p1 :: rest → PollReady t

/-- The premise of R71 for a run without reset, on the rows of the command in progress. -/
theorem pollsReady_of_eventuallyReady {s : State} (h : EventuallyReady s) (hnever : NeverReset s) : PollsReady s := by
  intro n t rest hto hpc
  have hready : PollReady (t.withHost (hostAfter n s.host)) :=
    h n _ rest (hto.run_eq (noReset_of_never n _ hnever)) hpc
  exact hready

/-- It holds of the rest of the rows. -/
theorem PollsReady.of_rowsTo {s t : State} {n : Nat} (h : PollsReady s) (hto : RowsTo n s t) : PollsReady t :=
  fun m u rest hto' hpc => h (n + m) u rest (hto.trans hto') hpc

/-- A poll that starts has samples of 1 below any limit and then a 0. -/
theorem PollsReady.answers {s : State} {rest : List Label} (h : PollsReady s) (hpc : s.pc = .pl .p1 :: rest) :
    ∃ k, Answers s (busyThenReady k) ∧ ∀ L, s.pollLimit = some L → k < L :=
  pollReady_busyThenReady s (h 0 s rest ⟨trivial, rfl⟩ hpc)

/-! ## Commands that end -/

/-- The rows of the command in progress lead to idle, and no fault is recorded. -/
def EndsWell (s : State) : Prop := ∃ n t, RowsTo n s t ∧ t.pc = [] ∧ t.fault = s.fault

/-- What rows lead to a command that ends well ends well. -/
theorem EndsWell.of_rowsTo {n : Nat} {s t : State} (hto : RowsTo n s t) (hfault : t.fault = s.fault) (h : EndsWell t) :
    EndsWell s := by
  obtain ⟨m, u, hto', hpc, hfault'⟩ := h
  exact ⟨n + m, u, hto.trans hto', hpc, hfault'.trans hfault⟩

/-- An idle block has ended. -/
theorem endsWell_idle {s : State} (hpc : s.pc = []) : EndsWell s := ⟨0, s, ⟨trivial, rfl⟩, hpc, rfl⟩

/-- SETCUR ends on every row. -/
theorem endsWell_setcur {s : State} (hpc : s.pc = [.c1]) : EndsWell s := by
  cases hb : rowByte s.arg with
  | some b => exact ⟨16, _, rowsTo_setcur hpc hb, rfl, rfl⟩
  | none => exact ⟨1, _, rowsTo_setcur_none hpc hb, rfl, rfl⟩

/-- POLL ends when its poll meets a sample of 0. -/
theorem endsWell_poll {s : State} (hpc : s.pc = [.q1]) (hready : PollsReady s) : EndsWell s := by
  have hcall : (performRow .q1 s).pc = [.pl .p1] := by simp [performRow, q1Row, hpc]
  obtain ⟨k, hanswers, hlimit⟩ := (hready.of_rowsTo (RowsTo.single hpc)).answers hcall
  exact ⟨_, _, rowsTo_pollCommand hpc hanswers hlimit, rfl, rfl⟩

/-- A guarded write of INIT before another poll: what comes after it is to be shown to end. -/
theorem endsWell_guardedWrite_poll {s : State} {l m n : InitLabel} {b : Byte}
    (hwrite : ∀ u, performRow (.init l) u = initWrite b m u)
    (hcall : ∀ u, performRow (.init m) u = u.callThen (.pl .p1) (.init n))
    (hnext : ∀ t : State, t.pc = [.pl .p1, .init n] → PollsReady t → EndsWell t) (hpc : s.pc = [.pl .p1, .init l])
    (hready : PollsReady s) : EndsWell s := by
  obtain ⟨k, hanswers, hlimit⟩ := hready.answers hpc
  have hto := rowsTo_guardedWrite_poll hwrite hcall hpc hanswers hlimit
  exact (hnext _ rfl (hready.of_rowsTo hto)).of_rowsTo hto rfl

/-- The last guarded write of INIT. -/
theorem endsWell_lastWrite (s : State) (hpc : s.pc = [.pl .p1, .init .i19]) (hready : PollsReady s) : EndsWell s := by
  obtain ⟨k, hanswers, hlimit⟩ := hready.answers hpc
  exact ⟨_, _, rowsTo_guardedWrite (rest := []) rfl hpc hanswers hlimit, rfl, rfl⟩

/-- INIT ends when each of its five polls meets a sample of 0. -/
theorem endsWell_init {s : State} (hpc : s.pc = [.init .i0]) (hready : PollsReady s) : EndsWell s := by
  have hhead := rowsTo_initHead hpc
  refine EndsWell.of_rowsTo hhead rfl ?_
  have hwrites : ∀ t : State, t.pc = [.pl .p1, .init .i11] → PollsReady t → EndsWell t := fun t =>
    endsWell_guardedWrite_poll (fun _ => rfl) (fun _ => rfl) fun t =>
      endsWell_guardedWrite_poll (fun _ => rfl) (fun _ => rfl) fun t =>
        endsWell_guardedWrite_poll (fun _ => rfl) (fun _ => rfl) fun t =>
          endsWell_guardedWrite_poll (fun _ => rfl) (fun _ => rfl) endsWell_lastWrite
  exact hwrites _ rfl (hready.of_rowsTo hhead)

/-- WRS ends when a byte of its string from the next one on is 0 and each of its polls meets a sample of 0. -/
theorem endsWell_string (d : Nat) : ∀ {s : State}, s.pc = [.wrs .s1] → s.str.read (s.sidx + d) = 0 → PollsReady s →
    EndsWell s := by
  induction d with
  | zero => intro s hpc hend _; exact ⟨2, _, rowsTo_terminator hpc hend, rfl, rfl⟩
  | succ d ih =>
    intro s hpc hend hready
    by_cases hc : s.str.read s.sidx = 0
    · exact ⟨2, _, rowsTo_terminator hpc hc, rfl, rfl⟩
    · obtain ⟨k, hanswers, hlimit⟩ := (hready.of_rowsTo (rowsTo_fetch hpc rfl hc)).answers rfl
      have hto := rowsTo_character hpc rfl hc hanswers hlimit
      refine (ih rfl ?_ (hready.of_rowsTo hto)).of_rowsTo hto rfl
      rw [← hend]
      exact congrArg s.str.read (Nat.succ_add_eq_add_succ s.sidx d)

/-- Every command accepted by an idle block ends, where a string bound for WRS has a zero byte and each poll meets a
sample of 0. -/
theorem endsWell_of_exec {i : Instr} {s t : State} (hpc : s.pc = []) (h : exec i s = .next t)
    (hstr : ∀ a str, i = .wrs a str → Terminated str) (hready : PollsReady t) : EndsWell t := by
  obtain rfl | ⟨op, arg, entry, hentry, rfl⟩ | ⟨a, str, hi, rfl⟩ := exec_cases h
  · exact endsWell_idle hpc
  · simp only [entryStacks, List.mem_cons, List.not_mem_nil, or_false] at hentry
    obtain rfl | rfl | rfl | rfl | rfl | rfl | rfl := hentry
    · exact endsWell_init rfl hready
    · exact ⟨16, _, rowsTo_wri rfl, rfl, rfl⟩
    · exact ⟨16, _, rowsTo_wrc rfl, rfl, rfl⟩
    · exact endsWell_setcur rfl
    · exact endsWell_poll rfl hready
    · exact ⟨1, _, rowsTo_pwr rfl, rfl, rfl⟩
    · exact endsWell_idle rfl
  · obtain ⟨d, hd⟩ := hstr a str hi
    exact endsWell_string d rfl (by rw [Nat.zero_add]; exact hd) hready

/-! ## Runs of a command -/

/-- Acceptance leaves the host's inputs as they were. -/
theorem exec_host {i : Instr} {s t : State} (h : exec i s = .next t) : t.host = s.host := by
  obtain rfl | ⟨op, arg, entry, -, rfl⟩ | ⟨a, str, -, rfl⟩ := exec_cases h
  all_goals rfl

/-- A command whose first step accepts it and whose rows lead to idle has a run. -/
theorem commandRun_of_rowsTo {o : Offer} {s t u : State} {n : Nat} (hpc : s.pc = []) (hr : s.resetAsserted = false)
    (ho : s.offered = some o) (haccept : step s = .next t) (hto : RowsTo n t u) (hidle : u.pc = [])
    (hn : noReset n t.host = true) : CommandRun o s (n + 1) (u.withHost (hostAfter n t.host)) where
  idle := hpc
  notReset := hr
  offered := ho
  steps := ⟨Nat.succ_pos n, (run_succ n s t haccept).trans (hto.run_eq hn)⟩
  ends := hidle
  first := by
    intro m v hpos hm hrun
    obtain ⟨j, rfl⟩ := Nat.exists_eq_add_of_le' hpos
    have hj : j < n := Nat.lt_of_succ_lt_succ hm
    rw [run_succ j s t haccept, run_busy_le n j t hto.1 hn hj.le] at hrun
    obtain rfl := Host.Outcome.next.inj hrun
    exact busyFor_pc n j t hto.1 hj

/-- Only the code 3 decodes to WRS, and with the string beside the word. -/
theorem fetchOffered_wrs {o : Offer} {a : Byte} {str : StringArg} (h : fetchOffered o = .wrs a str) :
    o.word.opField = 3 ∧ o.str = str := by
  rw [fetchOffered, ← CmdWord.make_fields o.word, decodeCommand_make] at h
  obtain hop | hop | hop | hop | hop | hop | hop | hop := opCode_cases o.word.opField
  case inr.inr.inr.inl =>
    rw [hop] at h
    exact ⟨hop, (Instr.wrs.inj h).2⟩
  all_goals
    rw [hop] at h
    exact nomatch h

/-- The host's later inputs assert no reset if its inputs do not. -/
theorem never_hostAfterIdle {h : List HostInput} (hnever : ∀ x ∈ h, x ≠ .reset) :
    ∀ x ∈ hostAfterIdle h, x ≠ .reset := by
  cases h with
  | nil => exact hnever
  | cons y rest => exact fun x hx => hnever x (List.mem_cons_of_mem _ hx)

/-- A host that never asserts reset asserts none now. -/
theorem resetAsserted_of_never {s : State} (hnever : NeverReset s) : s.resetAsserted = false :=
  resetAsserted_eq_false s fun rest hh => hnever .reset (by rw [hh]; exact List.mem_cons_self) rfl

/-- A command that an idle block is offered has a good run under the premises, after which the host's inputs are those
of a busy block's steps. -/
theorem exists_goodRun {s : State} {o : Offer} (hpc : s.pc = []) (ho : s.offered = some o) (hnever : NeverReset s)
    (hfault : s.fault = false) (hready : EventuallyReady s) (hstr : o.word.opField = 3 → Terminated o.str) :
    ∃ n u, GoodRun o s (n + 1) u ∧ u.host = hostAfter n (hostAfterIdle s.host) := by
  have hr := resetAsserted_of_never hnever
  obtain ⟨t, hexec⟩ := exec_answers (fetchOffered o) s.tookInput
  have haccept : step s = .next t := (step_accepts s o hr hpc ho).trans hexec
  rw [tookInput_idle hpc] at hexec
  have hhost : t.host = hostAfterIdle s.host := exec_host hexec
  have hnever' : NeverReset t := by
    rw [NeverReset, hhost]
    exact never_hostAfterIdle hnever
  have hready' : EventuallyReady t := eventuallyReady_of_run 1 s t hready (run_succ 0 s t haccept)
  have hterminated : ∀ a str, fetchOffered o = .wrs a str → Terminated str := by
    intro a str hi
    obtain ⟨hop, rfl⟩ := fetchOffered_wrs hi
    exact hstr hop
  obtain ⟨n, u, hto, hidle, hkept⟩ :=
    endsWell_of_exec (s := s.withHost (hostAfterIdle s.host)) hpc hexec hterminated
      (pollsReady_of_eventuallyReady hready' hnever')
  have hrun := commandRun_of_rowsTo hpc hr ho haccept hto hidle (noReset_of_never n _ hnever')
  refine ⟨n, _, ⟨hrun, ?_⟩, by rw [← hhost]; rfl⟩
  exact hkept.trans ((exec_fault hexec).trans hfault)

/-- Settles O52: acceptance, and the rows of the command to idle. -/
theorem commandsHaveGoodRunsWhenEventuallyReady : Obligations.CommandsHaveGoodRunsWhenEventuallyReady := by
  unfold Obligations.CommandsHaveGoodRunsWhenEventuallyReady
  intro s o hpc ho hnever hfault hready hstr
  obtain ⟨n, u, hgood, -⟩ := exists_goodRun hpc ho hnever hfault hready hstr
  exact ⟨n + 1, u, hgood⟩

/-! ## Runs of a list of commands -/

/-- Commands kept on the port stay on it while the block is busy. -/
theorem hostAfter_keep (n : Nat) (os : List Offer) : hostAfter n (os.map .keep) = os.map .keep := by
  induction n with
  | zero => rfl
  | succ n ih =>
    have hkept : hostAfterBusy (os.map .keep) = os.map .keep := by cases os <;> rfl
    rw [hostAfter, hkept, ih]

/-- Settles O53: the good run of the first command takes it off the port and leaves the others kept on it. -/
theorem commandListsHaveGoodRunsWhenEventuallyReady : Obligations.CommandListsHaveGoodRunsWhenEventuallyReady := by
  unfold Obligations.CommandListsHaveGoodRunsWhenEventuallyReady
  intro s os
  induction os generalizing s with
  | nil => intro hpc hh hfault _ _; exact ⟨0, s, ⟨.done s, hfault⟩, hpc, hh⟩
  | cons o os ih =>
    intro hpc hh hfault hready hstr
    have ho : s.offered = some o := by simp only [State.offered, hh, List.map_cons]
    have hnever : NeverReset s := by simp [NeverReset, hh]
    obtain ⟨m, t, ⟨hrun, hfault'⟩, hhost⟩ :=
      exists_goodRun hpc ho hnever hfault hready (hstr o List.mem_cons_self)
    have hkept : t.host = os.map .keep := by
      rw [hhost, hh]
      exact hostAfter_keep m os
    obtain ⟨n, u, ⟨hruns, hgood⟩, hidle, hempty⟩ := ih t hrun.ends hkept hfault'
      (eventuallyReady_of_run (m + 1) s t hready hrun.steps.2) fun o' ho' => hstr o' (List.mem_cons_of_mem _ ho')
    exact ⟨_, u, ⟨.command o os s t u (m + 1) n hrun hruns, hgood⟩, hidle, hempty⟩

end Sys2Proof.Machine
end
